-- ==== Sys2Proof/Word.lean ====
section
/-!
DEFINITION. The one word of the machine.

00_scope.md R3, R6: every register, memory value, operand and address is an 8-bit quantity; there is
no wider datum. `BitVec.toNat` is the spec's `u(v)`, `BitVec.toInt` its two's-complement reading
`s(v)`, `getLsbD i` its bit `v[i]` (R5: bit 7 most significant). Sums and differences of bytes are
modulo 256 (R9); as addresses they go through `Config.addrAdd` and `Config.addrSub`, the spec's
ADDR_WRAP (log 10).
-/

namespace Sys2Proof

/-- An 8-bit quantity: register, memory byte, operand or address (00_scope.md R3, R6). -/
abbrev Byte := BitVec 8

end Sys2Proof
end

