-- ==== Sys2Proof/Config.lean ====
section
/-!
DEFINITION. The implementation parameters of 00_scope.md R4 and the free values.

| parameter of R4 | here |
|---|---|
| `CC_BIT` | `Config.ccBit` (default layout, log 6) |
| `CC_UNUSED_READ` | `Config.ccUnusedRead` (free, log 5) |
| `REL_BASE` | `Config.relBase` (log 9) |
| `ADDR_WRAP` | `Config.addrAdd`, `Config.addrSub` (modulo 256, log 10) |
| `SUB_CARRY` | `Config.subCarry` (borrow, log 7) |
| `UNDEF_FLAG` | `Config.undefFlag` (free, log 4) |
| `ILLEGAL_OPCODE` | `Config.illegalOpcode` (a fault, log 11) |
| `RESET_PC` | `Config.resetPc` (log 2) |
| `RESET_STATE` | `Machine.State.reset` (log 1), `Config.powerOnByte` (free, log 3), `Config.resetByte`, `Config.resetMemByte`, `Config.resetKeeps` (free, log 14) |
| `IRQ_POLICY` | the field `inputs` of `Machine.State` (log 13) |
| `IRQ_PC` | `Config.irqPc` (free, log 12) |
| `MEM_MAP` | `Config.memMap` (all 256 locations are plain memory, log 15) |
| `HALT_CONVENTION` | `Machine.State.atEndOfRun` in Safety.lean (log 20) |

A free value is a constant without a body: no proof can depend on what it is, so whatever is proved
holds for every value of it.
-/

namespace Sys2Proof.Config

/-- The five flags of CC (10_state.md R24). -/
inductive Flag where
  | h | n | z | v | c
  deriving DecidableEq, Repr

/-- `CC_BIT`: the bit of the byte image of CC that holds each flag (00_scope.md R14). DESIGN CHOICE,
unsafe: D00 gives no layout; this is the spec's default (92_eei_decisions.md D1; log 6). -/
def ccBit : Flag → Nat
  | .h => 4
  | .n => 3
  | .z => 2
  | .v => 1
  | .c => 0

/-- `CC_UNUSED_READ`: what the bits of the byte image that hold no flag read as, at the draw with this
number (00_scope.md R14: any value, drawn anew at each use). DESIGN CHOICE, safe: free (log 5). -/
opaque ccUnusedRead : Nat → Byte

/-- `UNDEF_FLAG`: the value a flag marked `_` takes at the draw with this number (00_scope.md R16).
DESIGN CHOICE, safe: free (log 4). -/
opaque undefFlag : Nat → Bool

/-- The byte that a register (or, through its image, CC) holds after a RESET during a run, at the draw
with this number (70_reset_and_hazards.md R351: unspecified). DESIGN CHOICE, safe: free (log 14). -/
opaque resetByte : Nat → Byte

/-- The byte that an address outside the launch image holds after a RESET during a run, at the draw with
this number (10_state.md R40, 70_reset_and_hazards.md R351: unspecified; any value, fixed until
written). DESIGN CHOICE, safe: free (log 14). -/
opaque resetMemByte : Nat → Byte → Byte

/-- Whether an address of the launch image keeps, over a RESET during a run, what the program wrote
there, or holds the byte of the image again, at the draw with this number (70_reset_and_hazards.md
R351). DESIGN CHOICE, safe: free (log 14). -/
opaque resetKeeps : Nat → Byte → Bool

/-- What an address that nothing has written since power-on reads as (10_state.md R40,
93_implementation_defined.md U5: any value, fixed until written). DESIGN CHOICE, safe: free (log 3). -/
opaque powerOnByte : Byte → Byte

/-- `RESET_PC` (10_state.md R40, 70_reset_and_hazards.md R350: an 8-bit argument of the model). DESIGN
CHOICE, unsafe: `$00`, the value 92_eei_decisions.md D10 suggests for tests (log 2). -/
def resetPc : Byte := 0x00

/-- `IRQ_PC`: the address of the interrupt routine, a function of what memory reads as after the five
pushes (60_exceptions.md R326: an 8-bit value, or a function of memory). DESIGN CHOICE, safe: free
(log 12). -/
opaque irqPc : (Byte → Byte) → Byte

/-- The two readings of D00's carry of a subtraction (00_scope.md R12). -/
inductive SubCarry where
  /-- C is 1 when the unsigned minuend is smaller than the subtrahend. -/
  | borrow
  /-- C is the carry out of the adder that computes `a + ~b + 1`, the complement of the borrow. -/
  | adderCarry
  deriving DecidableEq, Repr

/-- `SUB_CARRY`. DESIGN CHOICE, unsafe: the borrow reading, the spec's own choice
(92_eei_decisions.md D6; log 7). -/
def subCarry : SubCarry := .borrow

/-- `ADDR_WRAP`: the sum of two bytes where it is an address or a value of PC, S or X. DESIGN CHOICE,
unsafe: modulo 256, the spec's own choice (20_memory.md R56, 92_eei_decisions.md D4; log 10). -/
@[reducible] def addrAdd (p q : Byte) : Byte := p + q

/-- `ADDR_WRAP`: the difference of two bytes where it is an address or a value of PC, S or X. DESIGN
CHOICE, unsafe: modulo 256 (20_memory.md R56, 92_eei_decisions.md D4; log 10). -/
@[reducible] def addrSub (p q : Byte) : Byte := p - q

/-- What a location of the address space can be in the terms of this spec (20_memory.md R57,
92_eei_decisions.md D14). A device is none of them: the spec describes none. -/
inductive Location where
  /-- Plain read and write memory, without side effects. -/
  | ram
  /-- Memory on which a store has no effect (D14: "stores to ROM would not take effect"). -/
  | rom
  deriving DecidableEq, Repr

/-- `MEM_MAP`. DESIGN CHOICE, unsafe: all 256 locations are plain memory, the spec's default
(92_eei_decisions.md D14; log 15). -/
@[reducible] def memMap (_ : Byte) : Location := .ram

/-- The treatments of an unassigned opcode that this spec admits (30_encoding.md R86: a model must not
execute it as NOP and must not guess a length). -/
inductive IllegalOpcode where
  /-- The step has no successor state. -/
  | fault
  deriving DecidableEq, Repr

/-- `ILLEGAL_OPCODE`. DESIGN CHOICE, safe: a fault of the model, the spec's own choice
(92_eei_decisions.md D9; log 11). -/
@[reducible] def illegalOpcode : IllegalOpcode := .fault

/-- `REL_BASE`: the value that "PC" denotes in the register transfers of an instruction whose next
sequential instruction is at `next`. DESIGN CHOICE, unsafe: that address itself, the spec's own
choice (45_jump.md R240, 92_eei_decisions.md D3; log 9). -/
@[reducible] def relBase (next : Byte) : Byte := next

end Sys2Proof.Config
end

