-- ==== Sys2Proof/Machine/State.lean ====
section
/-!
DEFINITION. The state of the machine, the reasons a step can stop, and the state after reset.

10_state.md: registers A, B, X, S, PC (R20 to R23), the flags of CC (R24), memory (R32), the address
latch MA (R31), the input lines (R33). R34: there is no other architectural state. `draws` is the
model's own (log 4).
-/

namespace Sys2Proof.Machine

/-- The condition-code register: five flags (10_state.md R24: a model holds CC as five separate
bits). `h` half carry, `n` negative, `z` zero, `v` overflow, `c` carry (R25 to R29). -/
structure CC where
  h : Bool
  n : Bool
  z : Bool
  v : Bool
  c : Bool
  deriving DecidableEq, Repr

/-- The four 8-bit registers that instructions name (00_scope.md R9). -/
inductive Reg where
  | a | b | x | s
  deriving DecidableEq, Repr

/-- What the environment does at one instruction boundary (60_exceptions.md R334; log 13). -/
inductive Input where
  /-- Nothing: the next instruction runs. -/
  | run
  /-- An IRQ is taken (60_exceptions.md R323, R324). -/
  | irq
  /-- RESET arrives (60_exceptions.md R322); a simultaneous IRQ is lost (R328). -/
  | reset
  /-- An IRQ is taken and RESET breaks its entry sequence after this many of the five pushes
  (60_exceptions.md R328). -/
  | resetInEntry (pushes : Nat)
  deriving DecidableEq, Repr

/-- Memory: (address, byte) pairs, addresses strictly rising and below 256; an address that is not
listed has been neither written nor RESET over since power-on (20_memory.md R50, R51; log 3). -/
abbrev Memory := List Host.Cell

/-- The state of the machine. -/
structure State where
  /-- Accumulator A (10_state.md R20). -/
  a : Byte
  /-- Accumulator B (10_state.md R20). -/
  b : Byte
  /-- Index register X (10_state.md R21). -/
  x : Byte
  /-- Stack register S (10_state.md R22). -/
  s : Byte
  /-- Program counter PC (10_state.md R23). -/
  pc : Byte
  /-- Condition codes CC (10_state.md R24). -/
  cc : CC
  /-- The 256 bytes of memory (10_state.md R32). -/
  mem : Memory
  /-- The launch image: the bytes that the platform supplies as program and data (10_state.md R40,
  92_eei_decisions.md D14). Only RESET looks at it, and nothing changes it (log 14). -/
  image : Memory
  /-- The memory address register MA: the address of the latest access (10_state.md R31; log 16). -/
  ma : Byte
  /-- The model's own: how many free values have been drawn (00_scope.md R16; log 4). -/
  draws : Nat
  /-- What the RESET and IRQ lines do at the coming instruction boundaries, the next first; nothing
  more when empty (10_state.md R33, 60_exceptions.md R334; log 13). -/
  inputs : List Input
  deriving DecidableEq, Repr

/-- Why a step faults. -/
inductive Fault where
  /-- The fetch of an opcode byte `$8A` to `$FF`, which the tables do not assign (30_encoding.md R86,
  60_exceptions.md R321). Raised by the fetch alone; safe: the model stops where the hardware does
  something the spec does not state (log 11). -/
  | illegalOpcode (op : Byte)
  deriving DecidableEq, Repr

/-- Why a step is refused. -/
inductive Refusal where
  /-- An instruction of the table without a meaning. Raised by no arm of `exec`: every instruction
  has its meaning; safe. -/
  | notModelled (mnemonic : String)
  deriving DecidableEq, Repr

/-- What an instruction or a step answers. -/
abbrev Result := Host.Outcome State Fault Refusal

/-- The machine right after power-on reset: `pc = RESET_PC`, no IRQ pending, nothing written in memory
(10_state.md R40). The registers and flags, which the spec leaves unspecified, are zero: DESIGN CHOICE,
unsafe (log 1). -/
def State.reset : State where
  a := 0
  b := 0
  x := 0
  s := 0
  pc := Config.resetPc
  cc := ⟨false, false, false, false, false⟩
  mem := []
  image := []
  ma := 0
  draws := 0
  inputs := []

end Sys2Proof.Machine
end

