-- ==== Sys2Proof/Machine/Flags.lean ====
section
/-!
DEFINITION. Every flag computation of the spec: N and Z (00_scope.md R10), addition (R11),
subtraction (R12), left shift (R13), the byte image of CC (R14, R15), undefined flags (R16), the
flag results that instruction families share, and the branch conditions (45_jump.md R241).
-/

namespace Sys2Proof.Machine

/-- N of an 8-bit result: its bit 7 (00_scope.md R10, 10_state.md R26). -/
def flagN (r : Byte) : Bool := r.getLsbD 7

/-- Z of an 8-bit result: it is zero (00_scope.md R10, 10_state.md R27). -/
def flagZ (r : Byte) : Bool := r == 0

/-- An exact two's-complement result is not representable in 8 bits, "wrong sign" (10_state.md R28). -/
def outOfRange (z : Int) : Bool := decide (z < -128) || decide (127 < z)

/-- What an addition yields: result, half carry, overflow, carry (00_scope.md R11). -/
structure AddResult where
  r : Byte
  h : Bool
  v : Bool
  c : Bool
  deriving DecidableEq, Repr

/-- What a subtraction or a shift yields: result, overflow, carry (00_scope.md R12, R13). -/
structure ArithResult where
  r : Byte
  v : Bool
  c : Bool
  deriving DecidableEq, Repr

/-- `add8(a, b, cin)` (00_scope.md R11). -/
def add8 (a b : Byte) (cin : Bool) : AddResult where
  r := BitVec.ofNat 8 (a.toNat + b.toNat + cin.toNat)
  h := decide (15 < a.toNat % 16 + b.toNat % 16 + cin.toNat)
  v := outOfRange (a.toInt + b.toInt + (cin.toNat : Int))
  c := decide (255 < a.toNat + b.toNat + cin.toNat)

/-- `sub8(a, b)` (00_scope.md R12); the sense of the carry is `SUB_CARRY` (log 7). -/
def sub8 (a b : Byte) : ArithResult where
  r := a - b
  v := outOfRange (a.toInt - b.toInt)
  c := match Config.subCarry with
    | .borrow => decide (a.toNat < b.toNat)
    | .adderCarry => decide (b.toNat ≤ a.toNat)

/-- `shl8(a, cin)` (00_scope.md R13; the functions of V and C: log 8). -/
def shl8 (a : Byte) (cin : Bool) : ArithResult where
  r := BitVec.ofNat 8 (2 * a.toNat + cin.toNat)
  v := a.getLsbD 7 ^^ a.getLsbD 6
  c := a.getLsbD 7

/-- One flag at its place in the byte image of CC. -/
def flagImage (f : Config.Flag) (value : Bool) : Byte :=
  if value then 1#8 <<< Config.ccBit f else 0#8

/-- The bits of the byte image that hold a flag. -/
def ccMask : Byte :=
  flagImage .h true ||| flagImage .n true ||| flagImage .z true ||| flagImage .v true |||
    flagImage .c true

/-- `cc_to_byte(CC)` (00_scope.md R14): each flag at its place, and `unused` in the bits that hold no
flag. -/
def ccToByte (cc : CC) (unused : Byte) : Byte :=
  flagImage .h cc.h ||| flagImage .n cc.n ||| flagImage .z cc.z ||| flagImage .v cc.v |||
    flagImage .c cc.c ||| (unused &&& ~~~ccMask)

/-- `byte_to_cc(v)` (00_scope.md R15): each flag from its place; the other bits are discarded. -/
def byteToCC (v : Byte) : CC where
  h := v.getLsbD (Config.ccBit .h)
  n := v.getLsbD (Config.ccBit .n)
  z := v.getLsbD (Config.ccBit .z)
  v := v.getLsbD (Config.ccBit .v)
  c := v.getLsbD (Config.ccBit .c)

/-- `undef()` (00_scope.md R16): a fresh free bit (log 4). -/
def State.drawFlag (m : State) : Bool × State :=
  (Config.undefFlag m.draws, { m with draws := m.draws + 1 })

/-- Read CC as a byte: `cc_to_byte(CC)`, the unused bits drawn anew (00_scope.md R14; log 5). -/
def State.readCC (m : State) : Byte × State :=
  (ccToByte m.cc (Config.ccUnusedRead m.draws), { m with draws := m.draws + 1 })

/-- Write CC from a byte: `CC <- byte_to_cc(v)` (00_scope.md R15). -/
def State.writeCC (m : State) (v : Byte) : State :=
  { m with cc := byteToCC v }

/-- Write all five flags, none of them undefined. -/
def State.setFlags (m : State) (cc : CC) : State :=
  { m with cc := cc }

/-- The flag cells `_ a a V C` of a result `r`: H is drawn, N and Z come from `r` (42_logic.md R150,
43_arithmetic.md R180, 44_test.md R220). -/
def State.flagsDrawH (m : State) (r : Byte) (v c : Bool) : State :=
  let h := m.drawFlag
  h.2.setFlags ⟨h.1, flagN r, flagZ r, v, c⟩

/-- The flag cells `_ a a 0 _` of COM: H and C are drawn (42_logic.md R163). -/
def State.flagsDrawHC (m : State) (r : Byte) : State :=
  let h := m.drawFlag
  let c := h.2.drawFlag
  c.2.setFlags ⟨h.1, flagN r, flagZ r, false, c.1⟩

/-- The flag cells `0 0 1 _ 0` of CLR: V is drawn (43_arithmetic.md R204). -/
def State.flagsClear (m : State) : State :=
  let v := m.drawFlag
  v.2.setFlags ⟨false, false, true, v.1, false⟩

/-- The fourteen branch conditions (45_jump.md R241). -/
inductive Cond where
  | mi | pl | eq | ne | vs | vc | cs | cc | hi | ls | gt | ge | le | lt
  deriving DecidableEq, Repr

/-- When a conditional branch is taken (45_jump.md R241, column "taken if"). -/
def Cond.holds : Cond → CC → Bool
  | .mi, f => f.n
  | .pl, f => !f.n
  | .eq, f => f.z
  | .ne, f => !f.z
  | .vs, f => f.v
  | .vc, f => !f.v
  | .cs, f => f.c
  | .cc, f => !f.c
  | .hi, f => !f.c && !f.z
  | .ls, f => f.c || f.z
  | .gt, f => !(f.n ^^ f.v) && !f.z
  | .ge, f => !(f.n ^^ f.v)
  | .le, f => (f.n ^^ f.v) || f.z
  | .lt, f => f.n ^^ f.v

end Sys2Proof.Machine
end

