-- ==== Sys2Proof/Machine/Memory.lean ====
section
/-!
DEFINITION. Memory: one space of 256 bytes (20_memory.md R50), read and written one byte at a time
(R51). Memory is kept in one canonical form (`Memory.wf`): addresses strictly rising and below 256.
-/

namespace Sys2Proof.Machine

/-- The byte listed for an address; `none` for an address nothing has written. -/
def Memory.find : Memory → Nat → Option Byte
  | [], _ => none
  | (k, v) :: rest, a => if a = k then some v else Memory.find rest a

/-- `MemRead(addr, 1)` (20_memory.md R51): the last byte written there, or, where nothing has been
written since power-on, a byte that is free and fixed (10_state.md R40; log 3). -/
def Memory.read (mem : Memory) (a : Byte) : Byte :=
  (mem.find a.toNat).getD (Config.powerOnByte a)

/-- Put a byte into the sorted list, in the place of the byte listed for that address if there is one. -/
def Memory.insertCell : Memory → Nat → Byte → Memory
  | [], a, v => [(a, v)]
  | (k, w) :: rest, a, v =>
    if a < k then (a, v) :: (k, w) :: rest
    else if a = k then (a, v) :: rest
    else (k, w) :: Memory.insertCell rest a v

/-- `MemWrite(addr, 1, v)` (20_memory.md R51): one location changes, no other; which locations take a
store is `MEM_MAP` (log 15). -/
def Memory.write (mem : Memory) (a v : Byte) : Memory :=
  match Config.memMap a with
  | .ram => mem.insertCell a.toNat v
  | .rom => mem

/-- The memory that lists, for each of `n` addresses from `a` on, the byte a function gives. -/
def Memory.cellsFrom (f : Byte → Byte) : Nat → Nat → Memory
  | _, 0 => []
  | a, n + 1 => (a, f (BitVec.ofNat 8 a)) :: Memory.cellsFrom f (a + 1) n

/-- The byte that an address holds after a RESET during a run (10_state.md R40,
70_reset_and_hazards.md R351; log 14): an address of the launch image the byte of the image or what it
held before, every other address an unspecified byte. -/
def Memory.byteAfterReset (mem image : Memory) (draw : Nat) (a : Byte) : Byte :=
  match image.find a.toNat with
  | some v => if Config.resetKeeps draw a then mem.read a else v
  | none => Config.resetMemByte draw a

/-- Memory after a RESET during a run (70_reset_and_hazards.md R351; log 14). -/
def Memory.afterReset (mem image : Memory) (draw : Nat) : Memory :=
  Memory.cellsFrom (mem.byteAfterReset image draw) 0 256

/-- Addresses strictly rising from `lo` on, and below 256. -/
def Memory.wfFrom : Nat → Memory → Bool
  | _, [] => true
  | lo, (k, _) :: rest => decide (lo ≤ k) && decide (k < 256) && Memory.wfFrom (k + 1) rest

/-- The canonical form. An unlisted address holds no written byte, so no listed byte can stand for it:
two memories in this form that list the same byte (or none) for every address are equal data. -/
def Memory.wf (mem : Memory) : Bool :=
  Memory.wfFrom 0 mem

end Sys2Proof.Machine
end

