-- ==== Sys2Proof/Machine/Ops.lean ====
section
/-!
DEFINITION. The operations over registers and memory that the meanings share: access to registers
and memory, the stack (20_memory.md R63), control transfer (45_jump.md R240), taking an interrupt
(60_exceptions.md R325), the return from it (45_jump.md R261) and RESET (60_exceptions.md R322).
-/

namespace Sys2Proof.Machine

/-- `x[r]` (00_scope.md R9). -/
def State.reg (m : State) : Reg → Byte
  | .a => m.a
  | .b => m.b
  | .x => m.x
  | .s => m.s

/-- `x[r] <- v` (00_scope.md R9). -/
def State.setReg (m : State) (r : Reg) (v : Byte) : State :=
  match r with
  | .a => { m with a := v }
  | .b => { m with b := v }
  | .x => { m with x := v }
  | .s => { m with s := v }

/-- Copy a register to another (41_data_transfer.md R120). -/
def State.transfer (m : State) (src dst : Reg) : State :=
  m.setReg dst (m.reg src)

/-- Exchange two registers (41_data_transfer.md R120). -/
def State.exchange (m : State) (r q : Reg) : State :=
  (m.setReg r (m.reg q)).setReg q (m.reg r)

/-- Exchange a register with CC through the byte image of CC (41_data_transfer.md R120). -/
def State.exchangeCC (m : State) (r : Reg) : State :=
  let image := m.readCC
  (image.2.writeCC (m.reg r)).setReg r image.1

/-- Read the byte at an address; MA holds the address (20_memory.md R51, 10_state.md R31). -/
def State.load (m : State) (a : Byte) : Byte × State :=
  (m.mem.read a, { m with ma := a })

/-- Store a byte at an address; MA holds the address (20_memory.md R51, 10_state.md R31). -/
def State.store (m : State) (a v : Byte) : State :=
  { m with mem := m.mem.write a v, ma := a }

/-- Push a byte: `x[S] <- x[S] - 1`, then store it at the new S (20_memory.md R63). -/
def State.push (m : State) (v : Byte) : State :=
  ({ m with s := Config.addrSub m.s 1 }).store (Config.addrSub m.s 1) v

/-- Pull a byte: load it at S, then `x[S] <- x[S] + 1` (20_memory.md R63). -/
def State.pull (m : State) : Byte × State :=
  let v := m.load m.s
  (v.1, { v.2 with s := Config.addrAdd m.s 1 })

/-- `pc <- target`. -/
def State.jump (m : State) (target : Byte) : State :=
  { m with pc := target }

/-- `(pc + Offs) mod 256`, where "PC" is the address of the next instruction (45_jump.md R240). -/
def State.branchTarget (m : State) (offs : Byte) : Byte :=
  Config.addrAdd (Config.relBase m.pc) offs

/-- Branch if the condition holds, else continue with the next instruction (45_jump.md R241). -/
def State.branchIf (m : State) (taken : Bool) (offs : Byte) : State :=
  if taken then m.jump (m.branchTarget offs) else m

/-- Push several bytes, the first in the list first. -/
def State.pushAll : List Byte → State → State
  | [], m => m
  | v :: vs, m => State.pushAll vs (m.push v)

/-- The five bytes an interrupt entry pushes, in the order they are pushed: PC, X, the byte image of
CC, B, A (60_exceptions.md R325; DEDUCED by the spec from RTI, log 12). -/
def State.irqFrame (m : State) : List Byte × State :=
  let image := m.readCC
  ([m.pc, m.x, image.1, m.b, m.a], image.2)

/-- Interrupt entry (60_exceptions.md R325, R326): push the frame, then `pc <- IRQ_PC`. Flags, A, B
and X are unchanged; no mode and no mask exists. -/
def State.takeIrq (m : State) : State :=
  let frame := m.irqFrame
  let m2 := State.pushAll frame.1 frame.2
  m2.jump (Config.irqPc m2.mem.read)

/-- Return from interrupt: pull A, B, CC, X and PC, in this order (45_jump.md R261,
60_exceptions.md R329). -/
def State.returnFromIrq (m : State) : State :=
  let a := m.pull
  let b := ({ a.2 with a := a.1 }).pull
  let image := ({ b.2 with b := b.1 }).pull
  let x := (image.2.writeCC image.1).pull
  let pc := ({ x.2 with x := x.1 }).pull
  pc.2.jump pc.1

/-- RESET during a run (60_exceptions.md R322, 70_reset_and_hazards.md R350, R351): `pc <- RESET_PC`;
A, B, X, S, MA and the flags are unspecified (free values), and so is memory outside the launch image
(`Memory.afterReset`; log 14). -/
def State.takeReset (m : State) : State :=
  { m with
    a := Config.resetByte m.draws
    b := Config.resetByte (m.draws + 1)
    x := Config.resetByte (m.draws + 2)
    s := Config.resetByte (m.draws + 3)
    cc := byteToCC (Config.resetByte (m.draws + 4))
    ma := Config.resetByte (m.draws + 5)
    mem := m.mem.afterReset m.image (m.draws + 6)
    draws := m.draws + 7
    pc := Config.resetPc }

/-- An interrupt entry that RESET breaks after `pushes` of its pushes (60_exceptions.md R328). -/
def State.cutIrqByReset (m : State) (pushes : Nat) : State :=
  let frame := m.irqFrame
  (State.pushAll (frame.1.take pushes) frame.2).takeReset

end Sys2Proof.Machine
end

