-- ==== Sys2Proof/Machine/Operands.lean ====
section
/-!
DEFINITION. The operand forms: immediate and absolute sources (30_encoding.md R83), the place an
in-place instruction works on, and the six forms built on X (48_indexed_transfer.md R290), with the
loads, stores and arithmetic that the meanings share over them.
-/

namespace Sys2Proof.Machine

/-- A second operand: the byte itself, or the memory byte at an absolute address (30_encoding.md R83). -/
inductive Source where
  | data (d : Byte)
  | adr (a : Byte)
  deriving DecidableEq, Repr

/-- What a one-operand instruction works on in place (43_arithmetic.md R180 (4)). -/
inductive Place where
  | reg (r : Reg)
  | adr (a : Byte)
  deriving DecidableEq, Repr

/-- The operand forms built on X (48_indexed_transfer.md R290). -/
inductive IndexForm where
  /-- `,X` -/
  | x
  /-- `,X+` -/
  | xInc
  /-- `,-X` -/
  | decX
  /-- `n,X` -/
  | nX (n : Byte)
  /-- `A,X` -/
  | aX
  /-- `B,X` -/
  | bX
  deriving DecidableEq, Repr

/-- The value of a second operand. -/
def State.operand (m : State) : Source → Byte × State
  | .data d => (d, m)
  | .adr a => m.load a

/-- Read the operand of an in-place instruction. -/
def State.readPlace (m : State) : Place → Byte × State
  | .reg r => (m.reg r, m)
  | .adr a => m.load a

/-- Write the result of an in-place instruction back. -/
def State.writePlace (m : State) (p : Place) (v : Byte) : State :=
  match p with
  | .reg r => m.setReg r v
  | .adr a => m.store a v

/-- The effective address of an indexed form, and the state after the pre-decrement of `,-X`
(48_indexed_transfer.md R290). -/
def State.indexAddress (m : State) : IndexForm → Byte × State
  | .x => (m.x, m)
  | .xInc => (m.x, m)
  | .decX => (Config.addrSub m.x 1, { m with x := Config.addrSub m.x 1 })
  | .nX n => (Config.addrAdd n m.x, m)
  | .aX => (Config.addrAdd m.a m.x, m)
  | .bX => (Config.addrAdd m.b m.x, m)

/-- What an indexed form does after the access: the post-increment of `,X+`
(48_indexed_transfer.md R290). -/
def State.indexAfter (m : State) : IndexForm → State
  | .x => m
  | .xInc => { m with x := Config.addrAdd m.x 1 }
  | .decX => m
  | .nX _ => m
  | .aX => m
  | .bX => m

/-- Load a register from a source (41_data_transfer.md R120). -/
def State.loadReg (m : State) (r : Reg) (src : Source) : State :=
  let d := m.operand src
  d.2.setReg r d.1

/-- Store a register at an absolute address (41_data_transfer.md R120). -/
def State.storeReg (m : State) (r : Reg) (adr : Byte) : State :=
  m.store adr (m.reg r)

/-- Load an accumulator through X (48_indexed_transfer.md R290). -/
def State.loadIndexed (m : State) (r : Reg) (form : IndexForm) : State :=
  let ea := m.indexAddress form
  let d := ea.2.load ea.1
  (d.2.setReg r d.1).indexAfter form

/-- Store an accumulator through X (48_indexed_transfer.md R290). -/
def State.storeIndexed (m : State) (r : Reg) (form : IndexForm) : State :=
  let ea := m.indexAddress form
  (ea.2.store ea.1 (m.reg r)).indexAfter form

/-- AND, OR, EOR: result to the accumulator, flags `_ a a 0 0` (42_logic.md R150). -/
def State.logicReg (m : State) (op : Byte → Byte → Byte) (r : Reg) (src : Source) : State :=
  let d := m.operand src
  let res := op (d.2.reg r) d.1
  (d.2.setReg r res).flagsDrawH res false false

/-- BIT: the flags of AND, nothing else (44_test.md R220). -/
def State.bitTest (m : State) (r : Reg) (src : Source) : State :=
  let d := m.operand src
  d.2.flagsDrawH (d.2.reg r &&& d.1) false false

/-- ADD: result to the accumulator, all five flags from `add8` (43_arithmetic.md R180). -/
def State.addReg (m : State) (r : Reg) (src : Source) : State :=
  let d := m.operand src
  let sum := add8 (d.2.reg r) d.1 false
  (d.2.setReg r sum.r).setFlags ⟨sum.h, flagN sum.r, flagZ sum.r, sum.v, sum.c⟩

/-- SUB: result to the accumulator, flags `_ a a a a` from `sub8` (43_arithmetic.md R180). -/
def State.subReg (m : State) (r : Reg) (src : Source) : State :=
  let d := m.operand src
  let diff := sub8 (d.2.reg r) d.1
  (d.2.setReg r diff.r).flagsDrawH diff.r diff.v diff.c

/-- CMP: the flags of SUB, nothing else (44_test.md R220). -/
def State.compareReg (m : State) (r : Reg) (src : Source) : State :=
  let d := m.operand src
  let diff := sub8 (d.2.reg r) d.1
  d.2.flagsDrawH diff.r diff.v diff.c

/-- An in-place instruction with flags `_ a a a a` (43_arithmetic.md R180): read, compute, write
back. -/
def State.inPlace (m : State) (p : Place) (f : Byte → ArithResult) : State :=
  let d := m.readPlace p
  let res := f d.1
  (d.2.writePlace p res.r).flagsDrawH res.r res.v res.c

/-- INC as an addition of 1, without its half carry (43_arithmetic.md R198). -/
def inc8 (v : Byte) : ArithResult :=
  let sum := add8 v 1 false
  ⟨sum.r, sum.v, sum.c⟩

/-- COM: complement in place, flags `_ a a 0 _` (42_logic.md R150). -/
def State.complement (m : State) (p : Place) : State :=
  let d := m.readPlace p
  (d.2.writePlace p (~~~d.1)).flagsDrawHC (~~~d.1)

/-- CLR: write zero without reading, flags `0 0 1 _ 0` (43_arithmetic.md R180, R206). -/
def State.clear (m : State) (p : Place) : State :=
  (m.writePlace p 0).flagsClear

/-- TST: flags `_ a a 0 0` of the value, nothing else (44_test.md R220). -/
def State.testPlace (m : State) (p : Place) : State :=
  let d := m.readPlace p
  d.2.flagsDrawH d.1 false false

end Sys2Proof.Machine
end

