-- ==== Sys2Proof/Machine/Arith.lean ====
section
/-!
DEFINITION. Arithmetic: ADD, SUB, NEG, ASL, ROL, INC, DEC, CLR (43_arithmetic.md R180 to R206).
One definition for each instruction, run on the state after the fetch: `m.pc` is the address of
the next instruction (30_encoding.md R84).
-/

namespace Sys2Proof.Machine

/-- ADDA Adr: `m <- MemRead(Adr, 1); (r, h, v, c) <- add8(x[A], m, 0); x[A] <- r; CC.H <- h; CC.N
<- r[7]; CC.Z <- (r = 0); CC.V <- v; CC.C <- c` (43_arithmetic.md R181). -/
def execAddaAdr (adr : Byte) (m : State) : Result :=
  .next (m.addReg .a (.adr adr))

/-- ADDB Adr: `m <- MemRead(Adr, 1); (r, h, v, c) <- add8(x[B], m, 0); x[B] <- r; CC.H <- h; CC.N
<- r[7]; CC.Z <- (r = 0); CC.V <- v; CC.C <- c` (43_arithmetic.md R182). -/
def execAddbAdr (adr : Byte) (m : State) : Result :=
  .next (m.addReg .b (.adr adr))

/-- ADDA #Data: `(r, h, v, c) <- add8(x[A], Data, 0); x[A] <- r; CC.H <- h; CC.N <- r[7]; CC.Z <-
(r = 0); CC.V <- v; CC.C <- c` (43_arithmetic.md R183). -/
def execAddaImm (data : Byte) (m : State) : Result :=
  .next (m.addReg .a (.data data))

/-- ADDB #Data: `(r, h, v, c) <- add8(x[B], Data, 0); x[B] <- r; CC.H <- h; CC.N <- r[7]; CC.Z <-
(r = 0); CC.V <- v; CC.C <- c` (43_arithmetic.md R184). -/
def execAddbImm (data : Byte) (m : State) : Result :=
  .next (m.addReg .b (.data data))

/-- SUBA Adr: `m <- MemRead(Adr, 1); (r, v, c) <- sub8(x[A], m); x[A] <- r; CC.H <- undef(); CC.N
<- r[7]; CC.Z <- (r = 0); CC.V <- v; CC.C <- c` (43_arithmetic.md R185). -/
def execSubaAdr (adr : Byte) (m : State) : Result :=
  .next (m.subReg .a (.adr adr))

/-- SUBB Adr: `m <- MemRead(Adr, 1); (r, v, c) <- sub8(x[B], m); x[B] <- r; CC.H <- undef(); CC.N
<- r[7]; CC.Z <- (r = 0); CC.V <- v; CC.C <- c` (43_arithmetic.md R186). -/
def execSubbAdr (adr : Byte) (m : State) : Result :=
  .next (m.subReg .b (.adr adr))

/-- SUBA #Data: `(r, v, c) <- sub8(x[A], Data); x[A] <- r; CC.H <- undef(); CC.N <- r[7]; CC.Z <-
(r = 0); CC.V <- v; CC.C <- c` (43_arithmetic.md R187). -/
def execSubaImm (data : Byte) (m : State) : Result :=
  .next (m.subReg .a (.data data))

/-- SUBB #Data: `(r, v, c) <- sub8(x[B], Data); x[B] <- r; CC.H <- undef(); CC.N <- r[7]; CC.Z <-
(r = 0); CC.V <- v; CC.C <- c` (43_arithmetic.md R188). -/
def execSubbImm (data : Byte) (m : State) : Result :=
  .next (m.subReg .b (.data data))

/-- NEGA: `(r, v, c) <- sub8(0, x[A]); x[A] <- r; CC.H <- undef(); CC.N <- r[7]; CC.Z <- (r = 0);
CC.V <- v; CC.C <- c` (43_arithmetic.md R189). -/
def execNega (m : State) : Result :=
  .next (m.inPlace (.reg .a) fun v => sub8 0 v)

/-- NEGB: `(r, v, c) <- sub8(0, x[B]); x[B] <- r; CC.H <- undef(); CC.N <- r[7]; CC.Z <- (r = 0);
CC.V <- v; CC.C <- c` (43_arithmetic.md R190). -/
def execNegb (m : State) : Result :=
  .next (m.inPlace (.reg .b) fun v => sub8 0 v)

/-- NEG Adr: `a <- MemRead(Adr, 1); (r, v, c) <- sub8(0, a); MemWrite(Adr, 1, r); CC.H <- undef();
CC.N <- r[7]; CC.Z <- (r = 0); CC.V <- v; CC.C <- c` (43_arithmetic.md R191). -/
def execNegAdr (adr : Byte) (m : State) : Result :=
  .next (m.inPlace (.adr adr) fun v => sub8 0 v)

/-- ASLA: `(r, v, c) <- shl8(x[A], 0); x[A] <- r; CC.H <- undef(); CC.N <- r[7]; CC.Z <- (r = 0);
CC.V <- v; CC.C <- c` (43_arithmetic.md R192). -/
def execAsla (m : State) : Result :=
  .next (m.inPlace (.reg .a) fun v => shl8 v false)

/-- ASLB: `(r, v, c) <- shl8(x[B], 0); x[B] <- r; CC.H <- undef(); CC.N <- r[7]; CC.Z <- (r = 0);
CC.V <- v; CC.C <- c` (43_arithmetic.md R193). -/
def execAslb (m : State) : Result :=
  .next (m.inPlace (.reg .b) fun v => shl8 v false)

/-- ASL Adr: `a <- MemRead(Adr, 1); (r, v, c) <- shl8(a, 0); MemWrite(Adr, 1, r); CC.H <- undef();
CC.N <- r[7]; CC.Z <- (r = 0); CC.V <- v; CC.C <- c` (43_arithmetic.md R194). -/
def execAslAdr (adr : Byte) (m : State) : Result :=
  .next (m.inPlace (.adr adr) fun v => shl8 v false)

/-- ROLA: `(r, v, c) <- shl8(x[A], CC.C); x[A] <- r; CC.H <- undef(); CC.N <- r[7]; CC.Z <- (r =
0); CC.V <- v; CC.C <- c` (43_arithmetic.md R195). -/
def execRola (m : State) : Result :=
  .next (m.inPlace (.reg .a) fun v => shl8 v m.cc.c)

/-- ROLB: `(r, v, c) <- shl8(x[B], CC.C); x[B] <- r; CC.H <- undef(); CC.N <- r[7]; CC.Z <- (r =
0); CC.V <- v; CC.C <- c` (43_arithmetic.md R196). -/
def execRolb (m : State) : Result :=
  .next (m.inPlace (.reg .b) fun v => shl8 v m.cc.c)

/-- ROL Adr: `a <- MemRead(Adr, 1); (r, v, c) <- shl8(a, CC.C); MemWrite(Adr, 1, r); CC.H <-
undef(); CC.N <- r[7]; CC.Z <- (r = 0); CC.V <- v; CC.C <- c` (43_arithmetic.md R197). -/
def execRolAdr (adr : Byte) (m : State) : Result :=
  .next (m.inPlace (.adr adr) fun v => shl8 v m.cc.c)

/-- INCA: `(r, h, v, c) <- add8(x[A], 1, 0); x[A] <- r; CC.H <- undef(); CC.N <- r[7]; CC.Z <- (r
= 0); CC.V <- v; CC.C <- c` (43_arithmetic.md R198). -/
def execInca (m : State) : Result :=
  .next (m.inPlace (.reg .a) inc8)

/-- INCB: `(r, h, v, c) <- add8(x[B], 1, 0); x[B] <- r; CC.H <- undef(); CC.N <- r[7]; CC.Z <- (r
= 0); CC.V <- v; CC.C <- c` (43_arithmetic.md R199). -/
def execIncb (m : State) : Result :=
  .next (m.inPlace (.reg .b) inc8)

/-- INC Adr: `a <- MemRead(Adr, 1); (r, h, v, c) <- add8(a, 1, 0); MemWrite(Adr, 1, r); CC.H <-
undef(); CC.N <- r[7]; CC.Z <- (r = 0); CC.V <- v; CC.C <- c` (43_arithmetic.md R200). -/
def execIncAdr (adr : Byte) (m : State) : Result :=
  .next (m.inPlace (.adr adr) inc8)

/-- DECA: `(r, v, c) <- sub8(x[A], 1); x[A] <- r; CC.H <- undef(); CC.N <- r[7]; CC.Z <- (r = 0);
CC.V <- v; CC.C <- c` (43_arithmetic.md R201). -/
def execDeca (m : State) : Result :=
  .next (m.inPlace (.reg .a) fun v => sub8 v 1)

/-- DECB: `(r, v, c) <- sub8(x[B], 1); x[B] <- r; CC.H <- undef(); CC.N <- r[7]; CC.Z <- (r = 0);
CC.V <- v; CC.C <- c` (43_arithmetic.md R202). -/
def execDecb (m : State) : Result :=
  .next (m.inPlace (.reg .b) fun v => sub8 v 1)

/-- DEC Adr: `a <- MemRead(Adr, 1); (r, v, c) <- sub8(a, 1); MemWrite(Adr, 1, r); CC.H <- undef();
CC.N <- r[7]; CC.Z <- (r = 0); CC.V <- v; CC.C <- c` (43_arithmetic.md R203). -/
def execDecAdr (adr : Byte) (m : State) : Result :=
  .next (m.inPlace (.adr adr) fun v => sub8 v 1)

/-- CLRA: `x[A] <- 0; CC.H <- 0; CC.N <- 0; CC.Z <- 1; CC.V <- undef(); CC.C <- 0`
(43_arithmetic.md R204). -/
def execClra (m : State) : Result :=
  .next (m.clear (.reg .a))

/-- CLRB: `x[B] <- 0; CC.H <- 0; CC.N <- 0; CC.Z <- 1; CC.V <- undef(); CC.C <- 0`
(43_arithmetic.md R205). -/
def execClrb (m : State) : Result :=
  .next (m.clear (.reg .b))

/-- CLR Adr: `MemWrite(Adr, 1, 0); CC.H <- 0; CC.N <- 0; CC.Z <- 1; CC.V <- undef(); CC.C <- 0`
(43_arithmetic.md R206). -/
def execClrAdr (adr : Byte) (m : State) : Result :=
  .next (m.clear (.adr adr))

end Sys2Proof.Machine
end

