-- ==== Sys2Proof/Machine/Indexed.lean ====
section
/-!
DEFINITION. Loads and stores of A and B through X (48_indexed_transfer.md R290 to R314). One
definition for each instruction, run on the state after the fetch: `m.pc` is the address of the
next instruction (30_encoding.md R84).
-/

namespace Sys2Proof.Machine

/-- LDA ,X: `ea <- x[X]; x[A] <- MemRead(ea, 1)` (48_indexed_transfer.md R291). -/
def execLdaX (m : State) : Result :=
  .next (m.loadIndexed .a .x)

/-- LDB ,X: `ea <- x[X]; x[B] <- MemRead(ea, 1)` (48_indexed_transfer.md R292). -/
def execLdbX (m : State) : Result :=
  .next (m.loadIndexed .b .x)

/-- LDA ,X+: `ea <- x[X]; x[A] <- MemRead(ea, 1); x[X] <- (x[X] + 1) mod 256`
(48_indexed_transfer.md R293). -/
def execLdaXInc (m : State) : Result :=
  .next (m.loadIndexed .a .xInc)

/-- LDB ,X+: `ea <- x[X]; x[B] <- MemRead(ea, 1); x[X] <- (x[X] + 1) mod 256`
(48_indexed_transfer.md R294). -/
def execLdbXInc (m : State) : Result :=
  .next (m.loadIndexed .b .xInc)

/-- LDA ,-X: `x[X] <- (x[X] - 1) mod 256; ea <- x[X]; x[A] <- MemRead(ea, 1)`
(48_indexed_transfer.md R295). -/
def execLdaDecX (m : State) : Result :=
  .next (m.loadIndexed .a .decX)

/-- LDB ,-X: `x[X] <- (x[X] - 1) mod 256; ea <- x[X]; x[B] <- MemRead(ea, 1)`
(48_indexed_transfer.md R296). -/
def execLdbDecX (m : State) : Result :=
  .next (m.loadIndexed .b .decX)

/-- LDA n,X: `ea <- (n + x[X]) mod 256; x[A] <- MemRead(ea, 1)` (48_indexed_transfer.md R297). -/
def execLdaNX (n : Byte) (m : State) : Result :=
  .next (m.loadIndexed .a (.nX n))

/-- LDB n,X: `ea <- (n + x[X]) mod 256; x[B] <- MemRead(ea, 1)` (48_indexed_transfer.md R298). -/
def execLdbNX (n : Byte) (m : State) : Result :=
  .next (m.loadIndexed .b (.nX n))

/-- LDA A,X: `ea <- (x[A] + x[X]) mod 256; x[A] <- MemRead(ea, 1)` (48_indexed_transfer.md R299).
-/
def execLdaAX (m : State) : Result :=
  .next (m.loadIndexed .a .aX)

/-- LDB A,X: `ea <- (x[A] + x[X]) mod 256; x[B] <- MemRead(ea, 1)` (48_indexed_transfer.md R300).
-/
def execLdbAX (m : State) : Result :=
  .next (m.loadIndexed .b .aX)

/-- LDA B,X: `ea <- (x[B] + x[X]) mod 256; x[A] <- MemRead(ea, 1)` (48_indexed_transfer.md R301).
-/
def execLdaBX (m : State) : Result :=
  .next (m.loadIndexed .a .bX)

/-- LDB B,X: `ea <- (x[B] + x[X]) mod 256; x[B] <- MemRead(ea, 1)` (48_indexed_transfer.md R302).
-/
def execLdbBX (m : State) : Result :=
  .next (m.loadIndexed .b .bX)

/-- STA ,X: `ea <- x[X]; MemWrite(ea, 1, x[A])` (48_indexed_transfer.md R303). -/
def execStaX (m : State) : Result :=
  .next (m.storeIndexed .a .x)

/-- STB ,X: `ea <- x[X]; MemWrite(ea, 1, x[B])` (48_indexed_transfer.md R304). -/
def execStbX (m : State) : Result :=
  .next (m.storeIndexed .b .x)

/-- STA ,X+: `ea <- x[X]; MemWrite(ea, 1, x[A]); x[X] <- (x[X] + 1) mod 256`
(48_indexed_transfer.md R305). -/
def execStaXInc (m : State) : Result :=
  .next (m.storeIndexed .a .xInc)

/-- STB ,X+: `ea <- x[X]; MemWrite(ea, 1, x[B]); x[X] <- (x[X] + 1) mod 256`
(48_indexed_transfer.md R306). -/
def execStbXInc (m : State) : Result :=
  .next (m.storeIndexed .b .xInc)

/-- STA ,-X: `x[X] <- (x[X] - 1) mod 256; ea <- x[X]; MemWrite(ea, 1, x[A])`
(48_indexed_transfer.md R307). -/
def execStaDecX (m : State) : Result :=
  .next (m.storeIndexed .a .decX)

/-- STB ,-X: `x[X] <- (x[X] - 1) mod 256; ea <- x[X]; MemWrite(ea, 1, x[B])`
(48_indexed_transfer.md R308). -/
def execStbDecX (m : State) : Result :=
  .next (m.storeIndexed .b .decX)

/-- STA n,X: `ea <- (n + x[X]) mod 256; MemWrite(ea, 1, x[A])` (48_indexed_transfer.md R309). -/
def execStaNX (n : Byte) (m : State) : Result :=
  .next (m.storeIndexed .a (.nX n))

/-- STB n,X: `ea <- (n + x[X]) mod 256; MemWrite(ea, 1, x[B])` (48_indexed_transfer.md R310). -/
def execStbNX (n : Byte) (m : State) : Result :=
  .next (m.storeIndexed .b (.nX n))

/-- STA A,X: `ea <- (x[A] + x[X]) mod 256; MemWrite(ea, 1, x[A])` (48_indexed_transfer.md R311).
-/
def execStaAX (m : State) : Result :=
  .next (m.storeIndexed .a .aX)

/-- STB A,X: `ea <- (x[A] + x[X]) mod 256; MemWrite(ea, 1, x[B])` (48_indexed_transfer.md R312).
-/
def execStbAX (m : State) : Result :=
  .next (m.storeIndexed .b .aX)

/-- STA B,X: `ea <- (x[B] + x[X]) mod 256; MemWrite(ea, 1, x[A])` (48_indexed_transfer.md R313).
-/
def execStaBX (m : State) : Result :=
  .next (m.storeIndexed .a .bX)

/-- STB B,X: `ea <- (x[B] + x[X]) mod 256; MemWrite(ea, 1, x[B])` (48_indexed_transfer.md R314; B,
not the A of the source table (90_conflicts.md C1; log 17)). -/
def execStbBX (m : State) : Result :=
  .next (m.storeIndexed .b .bX)

end Sys2Proof.Machine
end

