-- ==== Sys2Proof/Machine/Jump.lean ====
section
/-!
DEFINITION. Jumps: JMP, BRA, the conditional branches, JSR, RTS, BSR, RTI (45_jump.md R240 to
R261). One definition for each instruction, run on the state after the fetch: `m.pc` is the
address of the next instruction (30_encoding.md R84).
-/

namespace Sys2Proof.Machine

/-- JMP Adr: `pc <- Adr` (45_jump.md R242). -/
def execJmpAdr (adr : Byte) (m : State) : Result :=
  .next (m.jump adr)

/-- BRA Offs: `pc <- (pc + Offs) mod 256` (45_jump.md R243). -/
def execBraOffs (offs : Byte) (m : State) : Result :=
  .next (m.jump (m.branchTarget offs))

/-- BMI Offs: `if CC.N = 1 then pc <- (pc + Offs) mod 256` (45_jump.md R244). -/
def execBmiOffs (offs : Byte) (m : State) : Result :=
  .next (m.branchIf (Cond.holds .mi m.cc) offs)

/-- BPL Offs: `if CC.N = 0 then pc <- (pc + Offs) mod 256` (45_jump.md R245). -/
def execBplOffs (offs : Byte) (m : State) : Result :=
  .next (m.branchIf (Cond.holds .pl m.cc) offs)

/-- BEQ Offs: `if CC.Z = 1 then pc <- (pc + Offs) mod 256` (45_jump.md R246). -/
def execBeqOffs (offs : Byte) (m : State) : Result :=
  .next (m.branchIf (Cond.holds .eq m.cc) offs)

/-- BNE Offs: `if CC.Z = 0 then pc <- (pc + Offs) mod 256` (45_jump.md R247). -/
def execBneOffs (offs : Byte) (m : State) : Result :=
  .next (m.branchIf (Cond.holds .ne m.cc) offs)

/-- BVS Offs: `if CC.V = 1 then pc <- (pc + Offs) mod 256` (45_jump.md R248). -/
def execBvsOffs (offs : Byte) (m : State) : Result :=
  .next (m.branchIf (Cond.holds .vs m.cc) offs)

/-- BVC Offs: `if CC.V = 0 then pc <- (pc + Offs) mod 256` (45_jump.md R249). -/
def execBvcOffs (offs : Byte) (m : State) : Result :=
  .next (m.branchIf (Cond.holds .vc m.cc) offs)

/-- BCS Offs: `if CC.C = 1 then pc <- (pc + Offs) mod 256` (45_jump.md R250). -/
def execBcsOffs (offs : Byte) (m : State) : Result :=
  .next (m.branchIf (Cond.holds .cs m.cc) offs)

/-- BCC Offs: `if CC.C = 0 then pc <- (pc + Offs) mod 256` (45_jump.md R251). -/
def execBccOffs (offs : Byte) (m : State) : Result :=
  .next (m.branchIf (Cond.holds .cc m.cc) offs)

/-- BHI Offs: `if (CC.C = 0 and CC.Z = 0) then pc <- (pc + Offs) mod 256` (45_jump.md R252). -/
def execBhiOffs (offs : Byte) (m : State) : Result :=
  .next (m.branchIf (Cond.holds .hi m.cc) offs)

/-- BLS Offs: `if (CC.C = 1 or CC.Z = 1) then pc <- (pc + Offs) mod 256` (45_jump.md R253). -/
def execBlsOffs (offs : Byte) (m : State) : Result :=
  .next (m.branchIf (Cond.holds .ls m.cc) offs)

/-- BGT Offs: `if (CC.N = CC.V and CC.Z = 0) then pc <- (pc + Offs) mod 256` (45_jump.md R254). -/
def execBgtOffs (offs : Byte) (m : State) : Result :=
  .next (m.branchIf (Cond.holds .gt m.cc) offs)

/-- BGE Offs: `if CC.N = CC.V then pc <- (pc + Offs) mod 256` (45_jump.md R255). -/
def execBgeOffs (offs : Byte) (m : State) : Result :=
  .next (m.branchIf (Cond.holds .ge m.cc) offs)

/-- BLE Offs: `if (CC.N ≠ CC.V or CC.Z = 1) then pc <- (pc + Offs) mod 256` (45_jump.md R256). -/
def execBleOffs (offs : Byte) (m : State) : Result :=
  .next (m.branchIf (Cond.holds .le m.cc) offs)

/-- BLT Offs: `if CC.N ≠ CC.V then pc <- (pc + Offs) mod 256` (45_jump.md R257). -/
def execBltOffs (offs : Byte) (m : State) : Result :=
  .next (m.branchIf (Cond.holds .lt m.cc) offs)

/-- JSR Adr: `x[S] <- (x[S] - 1) mod 256; MemWrite(x[S], 1, pc); pc <- Adr` (45_jump.md R258). -/
def execJsrAdr (adr : Byte) (m : State) : Result :=
  .next ((m.push (Config.relBase m.pc)).jump adr)

/-- RTS: `pc <- MemRead(x[S], 1); x[S] <- (x[S] + 1) mod 256` (45_jump.md R259). -/
def execRts (m : State) : Result :=
  let target := m.pull
  .next (target.2.jump target.1)

/-- BSR Offs: `x[S] <- (x[S] - 1) mod 256; MemWrite(x[S], 1, pc); pc <- (pc + Offs) mod 256`
(45_jump.md R260). -/
def execBsrOffs (offs : Byte) (m : State) : Result :=
  let called := m.push (Config.relBase m.pc)
  .next (called.jump (called.branchTarget offs))

/-- RTI: `x[A] <- MemRead(x[S], 1); x[S] <- (x[S] + 1) mod 256; x[B] <- MemRead(x[S], 1); x[S] <-
(x[S] + 1) mod 256; CC <- byte_to_cc(MemRead(x[S], 1)); x[S] <- (x[S] + 1) mod 256; x[X] <-
MemRead(x[S], 1); x[S] <- (x[S] + 1) mod 256; pc <- MemRead(x[S], 1); x[S] <- (x[S] + 1) mod 256`
(45_jump.md R261). -/
def execRti (m : State) : Result :=
  .next m.returnFromIrq

end Sys2Proof.Machine
end

