-- ==== Sys2Proof/Machine/Leax.lean ====
section
/-!
DEFINITION. LEAX: address arithmetic on X, without a memory access and without flags (47_leax.md
R280 to R285). One definition for each instruction, run on the state after the fetch: `m.pc` is
the address of the next instruction (30_encoding.md R84).
-/

namespace Sys2Proof.Machine

/-- LEAX ,-X: `x[X] <- (x[X] - 1) mod 256` (47_leax.md R281). -/
def execLeaxDecX (m : State) : Result :=
  .next (m.setReg .x (Config.addrSub m.x 1))

/-- LEAX ,X+: `x[X] <- (x[X] + 1) mod 256` (47_leax.md R282). -/
def execLeaxXInc (m : State) : Result :=
  .next (m.setReg .x (Config.addrAdd m.x 1))

/-- LEAX n,X: `x[X] <- (x[X] + n) mod 256` (47_leax.md R283). -/
def execLeaxNX (n : Byte) (m : State) : Result :=
  .next (m.setReg .x (Config.addrAdd m.x n))

/-- LEAX A,X: `x[X] <- (x[X] + x[A]) mod 256` (47_leax.md R284). -/
def execLeaxAX (m : State) : Result :=
  .next (m.setReg .x (Config.addrAdd m.x m.a))

/-- LEAX B,X: `x[X] <- (x[X] + x[B]) mod 256` (47_leax.md R285). -/
def execLeaxBX (m : State) : Result :=
  .next (m.setReg .x (Config.addrAdd m.x m.b))

end Sys2Proof.Machine
end

