-- ==== Sys2Proof/Machine/Logic.lean ====
section
/-!
DEFINITION. Logic: AND, OR, EOR, COM, ANDCC, ORCC (42_logic.md R150 to R167). One definition for
each instruction, run on the state after the fetch: `m.pc` is the address of the next instruction
(30_encoding.md R84).
-/

namespace Sys2Proof.Machine

/-- ANDA Adr: `m <- MemRead(Adr, 1); r <- x[A] & m; x[A] <- r; CC.H <- undef(); CC.N <- r[7]; CC.Z
<- (r = 0); CC.V <- 0; CC.C <- 0` (42_logic.md R151). -/
def execAndaAdr (adr : Byte) (m : State) : Result :=
  .next (m.logicReg (· &&& ·) .a (.adr adr))

/-- ANDB Adr: `m <- MemRead(Adr, 1); r <- x[B] & m; x[B] <- r; CC.H <- undef(); CC.N <- r[7]; CC.Z
<- (r = 0); CC.V <- 0; CC.C <- 0` (42_logic.md R152). -/
def execAndbAdr (adr : Byte) (m : State) : Result :=
  .next (m.logicReg (· &&& ·) .b (.adr adr))

/-- ANDA #Data: `r <- x[A] & Data; x[A] <- r; CC.H <- undef(); CC.N <- r[7]; CC.Z <- (r = 0); CC.V
<- 0; CC.C <- 0` (42_logic.md R153). -/
def execAndaImm (data : Byte) (m : State) : Result :=
  .next (m.logicReg (· &&& ·) .a (.data data))

/-- ANDB #Data: `r <- x[B] & Data; x[B] <- r; CC.H <- undef(); CC.N <- r[7]; CC.Z <- (r = 0); CC.V
<- 0; CC.C <- 0` (42_logic.md R154). -/
def execAndbImm (data : Byte) (m : State) : Result :=
  .next (m.logicReg (· &&& ·) .b (.data data))

/-- ORA Adr: `m <- MemRead(Adr, 1); r <- x[A] | m; x[A] <- r; CC.H <- undef(); CC.N <- r[7]; CC.Z
<- (r = 0); CC.V <- 0; CC.C <- 0` (42_logic.md R155). -/
def execOraAdr (adr : Byte) (m : State) : Result :=
  .next (m.logicReg (· ||| ·) .a (.adr adr))

/-- ORB Adr: `m <- MemRead(Adr, 1); r <- x[B] | m; x[B] <- r; CC.H <- undef(); CC.N <- r[7]; CC.Z
<- (r = 0); CC.V <- 0; CC.C <- 0` (42_logic.md R156). -/
def execOrbAdr (adr : Byte) (m : State) : Result :=
  .next (m.logicReg (· ||| ·) .b (.adr adr))

/-- ORA #Data: `r <- x[A] | Data; x[A] <- r; CC.H <- undef(); CC.N <- r[7]; CC.Z <- (r = 0); CC.V
<- 0; CC.C <- 0` (42_logic.md R157). -/
def execOraImm (data : Byte) (m : State) : Result :=
  .next (m.logicReg (· ||| ·) .a (.data data))

/-- ORB #Data: `r <- x[B] | Data; x[B] <- r; CC.H <- undef(); CC.N <- r[7]; CC.Z <- (r = 0); CC.V
<- 0; CC.C <- 0` (42_logic.md R158). -/
def execOrbImm (data : Byte) (m : State) : Result :=
  .next (m.logicReg (· ||| ·) .b (.data data))

/-- EORA Adr: `m <- MemRead(Adr, 1); r <- x[A] ^ m; x[A] <- r; CC.H <- undef(); CC.N <- r[7]; CC.Z
<- (r = 0); CC.V <- 0; CC.C <- 0` (42_logic.md R159). -/
def execEoraAdr (adr : Byte) (m : State) : Result :=
  .next (m.logicReg (· ^^^ ·) .a (.adr adr))

/-- EORB Adr: `m <- MemRead(Adr, 1); r <- x[B] ^ m; x[B] <- r; CC.H <- undef(); CC.N <- r[7]; CC.Z
<- (r = 0); CC.V <- 0; CC.C <- 0` (42_logic.md R160). -/
def execEorbAdr (adr : Byte) (m : State) : Result :=
  .next (m.logicReg (· ^^^ ·) .b (.adr adr))

/-- EORA #Data: `r <- x[A] ^ Data; x[A] <- r; CC.H <- undef(); CC.N <- r[7]; CC.Z <- (r = 0); CC.V
<- 0; CC.C <- 0` (42_logic.md R161). -/
def execEoraImm (data : Byte) (m : State) : Result :=
  .next (m.logicReg (· ^^^ ·) .a (.data data))

/-- EORB #Data: `r <- x[B] ^ Data; x[B] <- r; CC.H <- undef(); CC.N <- r[7]; CC.Z <- (r = 0); CC.V
<- 0; CC.C <- 0` (42_logic.md R162). -/
def execEorbImm (data : Byte) (m : State) : Result :=
  .next (m.logicReg (· ^^^ ·) .b (.data data))

/-- COMA: `r <- ~x[A]; x[A] <- r; CC.H <- undef(); CC.N <- r[7]; CC.Z <- (r = 0); CC.V <- 0; CC.C
<- undef()` (42_logic.md R163). -/
def execComa (m : State) : Result :=
  .next (m.complement (.reg .a))

/-- COMB: `r <- ~x[B]; x[B] <- r; CC.H <- undef(); CC.N <- r[7]; CC.Z <- (r = 0); CC.V <- 0; CC.C
<- undef()` (42_logic.md R164). -/
def execComb (m : State) : Result :=
  .next (m.complement (.reg .b))

/-- COM Adr: `m <- MemRead(Adr, 1); r <- ~m; MemWrite(Adr, 1, r); CC.H <- undef(); CC.N <- r[7];
CC.Z <- (r = 0); CC.V <- 0; CC.C <- undef()` (42_logic.md R165; flag cell as 90_conflicts.md C5
reads it (log 22)). -/
def execComAdr (adr : Byte) (m : State) : Result :=
  .next (m.complement (.adr adr))

/-- ANDCC #Data: `CC <- byte_to_cc(cc_to_byte(CC) & Data)` (42_logic.md R166; the unused bits of
the image are discarded again, so none is drawn, log 5). -/
def execAndccImm (data : Byte) (m : State) : Result :=
  .next (m.writeCC (ccToByte m.cc 0 &&& data))

/-- ORCC #Data: `CC <- byte_to_cc(cc_to_byte(CC) | Data)` (42_logic.md R167; the unused bits of
the image are discarded again, so none is drawn, log 5). -/
def execOrccImm (data : Byte) (m : State) : Result :=
  .next (m.writeCC (ccToByte m.cc 0 ||| data))

end Sys2Proof.Machine
end

