-- ==== Sys2Proof/Machine/NoOp.lean ====
section
/-!
DEFINITION. NOP (40_no_operation.md R110). One definition for each instruction, run on the state
after the fetch: `m.pc` is the address of the next instruction (30_encoding.md R84).
-/

namespace Sys2Proof.Machine

/-- NOP: no state other than pc changes (40_no_operation.md R110). -/
def execNop (m : State) : Result :=
  .next m

end Sys2Proof.Machine
end

