-- ==== Sys2Proof/Machine/Stack.lean ====
section
/-!
DEFINITION. Stack: PSHS and PULS of A, B, CC, X (46_stack.md R270 to R278). One definition for
each instruction, run on the state after the fetch: `m.pc` is the address of the next instruction
(30_encoding.md R84).
-/

namespace Sys2Proof.Machine

/-- PSHS A: `x[S] <- (x[S] - 1) mod 256; MemWrite(x[S], 1, x[A])` (46_stack.md R271). -/
def execPshsA (m : State) : Result :=
  .next (m.push (m.reg .a))

/-- PSHS B: `x[S] <- (x[S] - 1) mod 256; MemWrite(x[S], 1, x[B])` (46_stack.md R272). -/
def execPshsB (m : State) : Result :=
  .next (m.push (m.reg .b))

/-- PSHS CC: `x[S] <- (x[S] - 1) mod 256; MemWrite(x[S], 1, cc_to_byte(CC))` (46_stack.md R273).
-/
def execPshsCC (m : State) : Result :=
  let image := m.readCC
  .next (image.2.push image.1)

/-- PSHS X: `x[S] <- (x[S] - 1) mod 256; MemWrite(x[S], 1, x[X])` (46_stack.md R274). -/
def execPshsX (m : State) : Result :=
  .next (m.push (m.reg .x))

/-- PULS A: `x[A] <- MemRead(x[S], 1); x[S] <- (x[S] + 1) mod 256` (46_stack.md R275). -/
def execPulsA (m : State) : Result :=
  let v := m.pull
  .next (v.2.setReg .a v.1)

/-- PULS B: `x[B] <- MemRead(x[S], 1); x[S] <- (x[S] + 1) mod 256` (46_stack.md R276). -/
def execPulsB (m : State) : Result :=
  let v := m.pull
  .next (v.2.setReg .b v.1)

/-- PULS CC: `CC <- byte_to_cc(MemRead(x[S], 1)); x[S] <- (x[S] + 1) mod 256` (46_stack.md R277).
-/
def execPulsCC (m : State) : Result :=
  let image := m.pull
  .next (image.2.writeCC image.1)

/-- PULS X: `x[X] <- MemRead(x[S], 1); x[S] <- (x[S] + 1) mod 256` (46_stack.md R278). -/
def execPulsX (m : State) : Result :=
  let v := m.pull
  .next (v.2.setReg .x v.1)

end Sys2Proof.Machine
end

