-- ==== Sys2Proof/Machine/Test.lean ====
section
/-!
DEFINITION. Test: CMP, TST, BIT (44_test.md R220 to R235). One definition for each instruction,
run on the state after the fetch: `m.pc` is the address of the next instruction (30_encoding.md
R84).
-/

namespace Sys2Proof.Machine

/-- CMPA Adr: `m <- MemRead(Adr, 1); (r, v, c) <- sub8(x[A], m); CC.H <- undef(); CC.N <- r[7];
CC.Z <- (r = 0); CC.V <- v; CC.C <- c` (44_test.md R221). -/
def execCmpaAdr (adr : Byte) (m : State) : Result :=
  .next (m.compareReg .a (.adr adr))

/-- CMPB Adr: `m <- MemRead(Adr, 1); (r, v, c) <- sub8(x[B], m); CC.H <- undef(); CC.N <- r[7];
CC.Z <- (r = 0); CC.V <- v; CC.C <- c` (44_test.md R222). -/
def execCmpbAdr (adr : Byte) (m : State) : Result :=
  .next (m.compareReg .b (.adr adr))

/-- CMPX Adr: `m <- MemRead(Adr, 1); (r, v, c) <- sub8(x[X], m); CC.H <- undef(); CC.N <- r[7];
CC.Z <- (r = 0); CC.V <- v; CC.C <- c` (44_test.md R223). -/
def execCmpxAdr (adr : Byte) (m : State) : Result :=
  .next (m.compareReg .x (.adr adr))

/-- CMPS Adr: `m <- MemRead(Adr, 1); (r, v, c) <- sub8(x[S], m); CC.H <- undef(); CC.N <- r[7];
CC.Z <- (r = 0); CC.V <- v; CC.C <- c` (44_test.md R224). -/
def execCmpsAdr (adr : Byte) (m : State) : Result :=
  .next (m.compareReg .s (.adr adr))

/-- CMPA #Data: `(r, v, c) <- sub8(x[A], Data); CC.H <- undef(); CC.N <- r[7]; CC.Z <- (r = 0);
CC.V <- v; CC.C <- c` (44_test.md R225). -/
def execCmpaImm (data : Byte) (m : State) : Result :=
  .next (m.compareReg .a (.data data))

/-- CMPB #Data: `(r, v, c) <- sub8(x[B], Data); CC.H <- undef(); CC.N <- r[7]; CC.Z <- (r = 0);
CC.V <- v; CC.C <- c` (44_test.md R226). -/
def execCmpbImm (data : Byte) (m : State) : Result :=
  .next (m.compareReg .b (.data data))

/-- CMPX #Data: `(r, v, c) <- sub8(x[X], Data); CC.H <- undef(); CC.N <- r[7]; CC.Z <- (r = 0);
CC.V <- v; CC.C <- c` (44_test.md R227). -/
def execCmpxImm (data : Byte) (m : State) : Result :=
  .next (m.compareReg .x (.data data))

/-- CMPS #Data: `(r, v, c) <- sub8(x[S], Data); CC.H <- undef(); CC.N <- r[7]; CC.Z <- (r = 0);
CC.V <- v; CC.C <- c` (44_test.md R228). -/
def execCmpsImm (data : Byte) (m : State) : Result :=
  .next (m.compareReg .s (.data data))

/-- TSTA: `r <- x[A]; CC.H <- undef(); CC.N <- r[7]; CC.Z <- (r = 0); CC.V <- 0; CC.C <- 0`
(44_test.md R229). -/
def execTsta (m : State) : Result :=
  .next (m.testPlace (.reg .a))

/-- TSTB: `r <- x[B]; CC.H <- undef(); CC.N <- r[7]; CC.Z <- (r = 0); CC.V <- 0; CC.C <- 0`
(44_test.md R230). -/
def execTstb (m : State) : Result :=
  .next (m.testPlace (.reg .b))

/-- TST Adr: `r <- MemRead(Adr, 1); CC.H <- undef(); CC.N <- r[7]; CC.Z <- (r = 0); CC.V <- 0;
CC.C <- 0` (44_test.md R231). -/
def execTstAdr (adr : Byte) (m : State) : Result :=
  .next (m.testPlace (.adr adr))

/-- BITA Adr: `m <- MemRead(Adr, 1); r <- x[A] & m; CC.H <- undef(); CC.N <- r[7]; CC.Z <- (r =
0); CC.V <- 0; CC.C <- 0` (44_test.md R232). -/
def execBitaAdr (adr : Byte) (m : State) : Result :=
  .next (m.bitTest .a (.adr adr))

/-- BITB Adr: `m <- MemRead(Adr, 1); r <- x[B] & m; CC.H <- undef(); CC.N <- r[7]; CC.Z <- (r =
0); CC.V <- 0; CC.C <- 0` (44_test.md R233). -/
def execBitbAdr (adr : Byte) (m : State) : Result :=
  .next (m.bitTest .b (.adr adr))

/-- BITA #Data: `r <- x[A] & Data; CC.H <- undef(); CC.N <- r[7]; CC.Z <- (r = 0); CC.V <- 0; CC.C
<- 0` (44_test.md R234; flag cell as 90_conflicts.md C5 reads it (log 22)). -/
def execBitaImm (data : Byte) (m : State) : Result :=
  .next (m.bitTest .a (.data data))

/-- BITB #Data: `r <- x[B] & Data; CC.H <- undef(); CC.N <- r[7]; CC.Z <- (r = 0); CC.V <- 0; CC.C
<- 0` (44_test.md R235). -/
def execBitbImm (data : Byte) (m : State) : Result :=
  .next (m.bitTest .b (.data data))

end Sys2Proof.Machine
end

