-- ==== Sys2Proof/Machine/Transfer.lean ====
section
/-!
DEFINITION. Data transfer: TFR, EXG, LDx, STx (41_data_transfer.md R120 to R142). One definition
for each instruction, run on the state after the fetch: `m.pc` is the address of the next
instruction (30_encoding.md R84).
-/

namespace Sys2Proof.Machine

/-- TFR A,B: `x[B] <- x[A]` (41_data_transfer.md R121). -/
def execTfrAB (m : State) : Result :=
  .next (m.transfer .a .b)

/-- TFR B,A: `x[A] <- x[B]` (41_data_transfer.md R122). -/
def execTfrBA (m : State) : Result :=
  .next (m.transfer .b .a)

/-- TFR A,CC: `CC <- byte_to_cc(x[A])` (41_data_transfer.md R123). -/
def execTfrACC (m : State) : Result :=
  .next (m.writeCC m.a)

/-- TFR CC,A: `x[A] <- cc_to_byte(CC)` (41_data_transfer.md R124). -/
def execTfrCCA (m : State) : Result :=
  let image := m.readCC
  .next (image.2.setReg .a image.1)

/-- TFR X,S: `x[S] <- x[X]` (41_data_transfer.md R125). -/
def execTfrXS (m : State) : Result :=
  .next (m.transfer .x .s)

/-- TFR S,X: `x[X] <- x[S]` (41_data_transfer.md R126). -/
def execTfrSX (m : State) : Result :=
  .next (m.transfer .s .x)

/-- EXG A,B: `t <- x[A]; x[A] <- x[B]; x[B] <- t` (41_data_transfer.md R127). -/
def execExgAB (m : State) : Result :=
  .next (m.exchange .a .b)

/-- EXG A,CC: `t <- cc_to_byte(CC); CC <- byte_to_cc(x[A]); x[A] <- t` (41_data_transfer.md R128).
-/
def execExgACC (m : State) : Result :=
  .next (m.exchangeCC .a)

/-- EXG B,CC: `t <- cc_to_byte(CC); CC <- byte_to_cc(x[B]); x[B] <- t` (41_data_transfer.md R129).
-/
def execExgBCC (m : State) : Result :=
  .next (m.exchangeCC .b)

/-- EXG X,S: `t <- x[X]; x[X] <- x[S]; x[S] <- t` (41_data_transfer.md R130). -/
def execExgXS (m : State) : Result :=
  .next (m.exchange .x .s)

/-- LDA Adr: `x[A] <- MemRead(Adr, 1)` (41_data_transfer.md R131). -/
def execLdaAdr (adr : Byte) (m : State) : Result :=
  .next (m.loadReg .a (.adr adr))

/-- LDB Adr: `x[B] <- MemRead(Adr, 1)` (41_data_transfer.md R132). -/
def execLdbAdr (adr : Byte) (m : State) : Result :=
  .next (m.loadReg .b (.adr adr))

/-- LDX Adr: `x[X] <- MemRead(Adr, 1)` (41_data_transfer.md R133). -/
def execLdxAdr (adr : Byte) (m : State) : Result :=
  .next (m.loadReg .x (.adr adr))

/-- LDS Adr: `x[S] <- MemRead(Adr, 1)` (41_data_transfer.md R134). -/
def execLdsAdr (adr : Byte) (m : State) : Result :=
  .next (m.loadReg .s (.adr adr))

/-- LDA #Data: `x[A] <- Data` (41_data_transfer.md R135). -/
def execLdaImm (data : Byte) (m : State) : Result :=
  .next (m.loadReg .a (.data data))

/-- LDB #Data: `x[B] <- Data` (41_data_transfer.md R136). -/
def execLdbImm (data : Byte) (m : State) : Result :=
  .next (m.loadReg .b (.data data))

/-- LDX #Data: `x[X] <- Data` (41_data_transfer.md R137). -/
def execLdxImm (data : Byte) (m : State) : Result :=
  .next (m.loadReg .x (.data data))

/-- LDS #Data: `x[S] <- Data` (41_data_transfer.md R138). -/
def execLdsImm (data : Byte) (m : State) : Result :=
  .next (m.loadReg .s (.data data))

/-- STA Adr: `MemWrite(Adr, 1, x[A])` (41_data_transfer.md R139). -/
def execStaAdr (adr : Byte) (m : State) : Result :=
  .next (m.storeReg .a adr)

/-- STB Adr: `MemWrite(Adr, 1, x[B])` (41_data_transfer.md R140). -/
def execStbAdr (adr : Byte) (m : State) : Result :=
  .next (m.storeReg .b adr)

/-- STX Adr: `MemWrite(Adr, 1, x[X])` (41_data_transfer.md R141). -/
def execStxAdr (adr : Byte) (m : State) : Result :=
  .next (m.storeReg .x adr)

/-- STS Adr: `MemWrite(Adr, 1, x[S])` (41_data_transfer.md R142). -/
def execStsAdr (adr : Byte) (m : State) : Result :=
  .next (m.storeReg .s adr)

end Sys2Proof.Machine
end

