-- ==== Sys2Proof/Syntax.lean ====
section
/-!
DEFINITION. The 138 instructions, one constructor for each row of the opcode table, in opcode order
(30_encoding.md R85, R90). A two-byte instruction carries its operand byte (R82, R83). There are no
aliases (R94).
-/

namespace Sys2Proof

/-- The instructions. -/
inductive Instr where
  /-- `$00` `NOP` (40_no_operation.md R110). -/
  | nop
  /-- `$01` `TFR A,B` (41_data_transfer.md R121). -/
  | tfrAB
  /-- `$02` `TFR B,A` (41_data_transfer.md R122). -/
  | tfrBA
  /-- `$03` `TFR A,CC` (41_data_transfer.md R123). -/
  | tfrACC
  /-- `$04` `TFR CC,A` (41_data_transfer.md R124). -/
  | tfrCCA
  /-- `$05` `TFR X,S` (41_data_transfer.md R125). -/
  | tfrXS
  /-- `$06` `TFR S,X` (41_data_transfer.md R126). -/
  | tfrSX
  /-- `$07` `EXG A,B` (41_data_transfer.md R127). -/
  | exgAB
  /-- `$08` `EXG A,CC` (41_data_transfer.md R128). -/
  | exgACC
  /-- `$09` `EXG B,CC` (41_data_transfer.md R129). -/
  | exgBCC
  /-- `$0A` `EXG X,S` (41_data_transfer.md R130). -/
  | exgXS
  /-- `$0B` `LDA Adr` (41_data_transfer.md R131). -/
  | ldaAdr (adr : Byte)
  /-- `$0C` `LDB Adr` (41_data_transfer.md R132). -/
  | ldbAdr (adr : Byte)
  /-- `$0D` `LDX Adr` (41_data_transfer.md R133). -/
  | ldxAdr (adr : Byte)
  /-- `$0E` `LDS Adr` (41_data_transfer.md R134). -/
  | ldsAdr (adr : Byte)
  /-- `$0F` `LDA #Data` (41_data_transfer.md R135). -/
  | ldaImm (data : Byte)
  /-- `$10` `LDB #Data` (41_data_transfer.md R136). -/
  | ldbImm (data : Byte)
  /-- `$11` `LDX #Data` (41_data_transfer.md R137). -/
  | ldxImm (data : Byte)
  /-- `$12` `LDS #Data` (41_data_transfer.md R138). -/
  | ldsImm (data : Byte)
  /-- `$13` `STA Adr` (41_data_transfer.md R139). -/
  | staAdr (adr : Byte)
  /-- `$14` `STB Adr` (41_data_transfer.md R140). -/
  | stbAdr (adr : Byte)
  /-- `$15` `STX Adr` (41_data_transfer.md R141). -/
  | stxAdr (adr : Byte)
  /-- `$16` `STS Adr` (41_data_transfer.md R142). -/
  | stsAdr (adr : Byte)
  /-- `$17` `ANDA Adr` (42_logic.md R151). -/
  | andaAdr (adr : Byte)
  /-- `$18` `ANDB Adr` (42_logic.md R152). -/
  | andbAdr (adr : Byte)
  /-- `$19` `ANDA #Data` (42_logic.md R153). -/
  | andaImm (data : Byte)
  /-- `$1A` `ANDB #Data` (42_logic.md R154). -/
  | andbImm (data : Byte)
  /-- `$1B` `ORA Adr` (42_logic.md R155). -/
  | oraAdr (adr : Byte)
  /-- `$1C` `ORB Adr` (42_logic.md R156). -/
  | orbAdr (adr : Byte)
  /-- `$1D` `ORA #Data` (42_logic.md R157). -/
  | oraImm (data : Byte)
  /-- `$1E` `ORB #Data` (42_logic.md R158). -/
  | orbImm (data : Byte)
  /-- `$1F` `EORA Adr` (42_logic.md R159). -/
  | eoraAdr (adr : Byte)
  /-- `$20` `EORB Adr` (42_logic.md R160). -/
  | eorbAdr (adr : Byte)
  /-- `$21` `EORA #Data` (42_logic.md R161). -/
  | eoraImm (data : Byte)
  /-- `$22` `EORB #Data` (42_logic.md R162). -/
  | eorbImm (data : Byte)
  /-- `$23` `COMA` (42_logic.md R163). -/
  | coma
  /-- `$24` `COMB` (42_logic.md R164). -/
  | comb
  /-- `$25` `COM Adr` (42_logic.md R165). -/
  | comAdr (adr : Byte)
  /-- `$26` `ANDCC #Data` (42_logic.md R166). -/
  | andccImm (data : Byte)
  /-- `$27` `ORCC #Data` (42_logic.md R167). -/
  | orccImm (data : Byte)
  /-- `$28` `ADDA Adr` (43_arithmetic.md R181). -/
  | addaAdr (adr : Byte)
  /-- `$29` `ADDB Adr` (43_arithmetic.md R182). -/
  | addbAdr (adr : Byte)
  /-- `$2A` `ADDA #Data` (43_arithmetic.md R183). -/
  | addaImm (data : Byte)
  /-- `$2B` `ADDB #Data` (43_arithmetic.md R184). -/
  | addbImm (data : Byte)
  /-- `$2C` `SUBA Adr` (43_arithmetic.md R185). -/
  | subaAdr (adr : Byte)
  /-- `$2D` `SUBB Adr` (43_arithmetic.md R186). -/
  | subbAdr (adr : Byte)
  /-- `$2E` `SUBA #Data` (43_arithmetic.md R187). -/
  | subaImm (data : Byte)
  /-- `$2F` `SUBB #Data` (43_arithmetic.md R188). -/
  | subbImm (data : Byte)
  /-- `$30` `NEGA` (43_arithmetic.md R189). -/
  | nega
  /-- `$31` `NEGB` (43_arithmetic.md R190). -/
  | negb
  /-- `$32` `NEG Adr` (43_arithmetic.md R191). -/
  | negAdr (adr : Byte)
  /-- `$33` `ASLA` (43_arithmetic.md R192). -/
  | asla
  /-- `$34` `ASLB` (43_arithmetic.md R193). -/
  | aslb
  /-- `$35` `ASL Adr` (43_arithmetic.md R194). -/
  | aslAdr (adr : Byte)
  /-- `$36` `ROLA` (43_arithmetic.md R195). -/
  | rola
  /-- `$37` `ROLB` (43_arithmetic.md R196). -/
  | rolb
  /-- `$38` `ROL Adr` (43_arithmetic.md R197). -/
  | rolAdr (adr : Byte)
  /-- `$39` `INCA` (43_arithmetic.md R198). -/
  | inca
  /-- `$3A` `INCB` (43_arithmetic.md R199). -/
  | incb
  /-- `$3B` `INC Adr` (43_arithmetic.md R200). -/
  | incAdr (adr : Byte)
  /-- `$3C` `DECA` (43_arithmetic.md R201). -/
  | deca
  /-- `$3D` `DECB` (43_arithmetic.md R202). -/
  | decb
  /-- `$3E` `DEC Adr` (43_arithmetic.md R203). -/
  | decAdr (adr : Byte)
  /-- `$3F` `CLRA` (43_arithmetic.md R204). -/
  | clra
  /-- `$40` `CLRB` (43_arithmetic.md R205). -/
  | clrb
  /-- `$41` `CLR Adr` (43_arithmetic.md R206). -/
  | clrAdr (adr : Byte)
  /-- `$42` `CMPA Adr` (44_test.md R221). -/
  | cmpaAdr (adr : Byte)
  /-- `$43` `CMPB Adr` (44_test.md R222). -/
  | cmpbAdr (adr : Byte)
  /-- `$44` `CMPX Adr` (44_test.md R223). -/
  | cmpxAdr (adr : Byte)
  /-- `$45` `CMPS Adr` (44_test.md R224). -/
  | cmpsAdr (adr : Byte)
  /-- `$46` `CMPA #Data` (44_test.md R225). -/
  | cmpaImm (data : Byte)
  /-- `$47` `CMPB #Data` (44_test.md R226). -/
  | cmpbImm (data : Byte)
  /-- `$48` `CMPX #Data` (44_test.md R227). -/
  | cmpxImm (data : Byte)
  /-- `$49` `CMPS #Data` (44_test.md R228). -/
  | cmpsImm (data : Byte)
  /-- `$4A` `TSTA` (44_test.md R229). -/
  | tsta
  /-- `$4B` `TSTB` (44_test.md R230). -/
  | tstb
  /-- `$4C` `TST Adr` (44_test.md R231). -/
  | tstAdr (adr : Byte)
  /-- `$4D` `BITA Adr` (44_test.md R232). -/
  | bitaAdr (adr : Byte)
  /-- `$4E` `BITB Adr` (44_test.md R233). -/
  | bitbAdr (adr : Byte)
  /-- `$4F` `BITA #Data` (44_test.md R234). -/
  | bitaImm (data : Byte)
  /-- `$50` `BITB #Data` (44_test.md R235). -/
  | bitbImm (data : Byte)
  /-- `$51` `JMP Adr` (45_jump.md R242). -/
  | jmpAdr (adr : Byte)
  /-- `$52` `BRA Offs` (45_jump.md R243). -/
  | braOffs (offs : Byte)
  /-- `$53` `BMI Offs` (45_jump.md R244). -/
  | bmiOffs (offs : Byte)
  /-- `$54` `BPL Offs` (45_jump.md R245). -/
  | bplOffs (offs : Byte)
  /-- `$55` `BEQ Offs` (45_jump.md R246). -/
  | beqOffs (offs : Byte)
  /-- `$56` `BNE Offs` (45_jump.md R247). -/
  | bneOffs (offs : Byte)
  /-- `$57` `BVS Offs` (45_jump.md R248). -/
  | bvsOffs (offs : Byte)
  /-- `$58` `BVC Offs` (45_jump.md R249). -/
  | bvcOffs (offs : Byte)
  /-- `$59` `BCS Offs` (45_jump.md R250). -/
  | bcsOffs (offs : Byte)
  /-- `$5A` `BCC Offs` (45_jump.md R251). -/
  | bccOffs (offs : Byte)
  /-- `$5B` `BHI Offs` (45_jump.md R252). -/
  | bhiOffs (offs : Byte)
  /-- `$5C` `BLS Offs` (45_jump.md R253). -/
  | blsOffs (offs : Byte)
  /-- `$5D` `BGT Offs` (45_jump.md R254). -/
  | bgtOffs (offs : Byte)
  /-- `$5E` `BGE Offs` (45_jump.md R255). -/
  | bgeOffs (offs : Byte)
  /-- `$5F` `BLE Offs` (45_jump.md R256). -/
  | bleOffs (offs : Byte)
  /-- `$60` `BLT Offs` (45_jump.md R257). -/
  | bltOffs (offs : Byte)
  /-- `$61` `JSR Adr` (45_jump.md R258). -/
  | jsrAdr (adr : Byte)
  /-- `$62` `RTS` (45_jump.md R259). -/
  | rts
  /-- `$63` `BSR Offs` (45_jump.md R260). -/
  | bsrOffs (offs : Byte)
  /-- `$64` `RTI` (45_jump.md R261). -/
  | rti
  /-- `$65` `PSHS A` (46_stack.md R271). -/
  | pshsA
  /-- `$66` `PSHS B` (46_stack.md R272). -/
  | pshsB
  /-- `$67` `PSHS CC` (46_stack.md R273). -/
  | pshsCC
  /-- `$68` `PSHS X` (46_stack.md R274). -/
  | pshsX
  /-- `$69` `PULS A` (46_stack.md R275). -/
  | pulsA
  /-- `$6A` `PULS B` (46_stack.md R276). -/
  | pulsB
  /-- `$6B` `PULS CC` (46_stack.md R277). -/
  | pulsCC
  /-- `$6C` `PULS X` (46_stack.md R278). -/
  | pulsX
  /-- `$6D` `LEAX ,-X` (47_leax.md R281). -/
  | leaxDecX
  /-- `$6E` `LEAX ,X+` (47_leax.md R282). -/
  | leaxXInc
  /-- `$6F` `LEAX n,X` (47_leax.md R283). -/
  | leaxNX (n : Byte)
  /-- `$70` `LEAX A,X` (47_leax.md R284). -/
  | leaxAX
  /-- `$71` `LEAX B,X` (47_leax.md R285). -/
  | leaxBX
  /-- `$72` `LDA ,X` (48_indexed_transfer.md R291). -/
  | ldaX
  /-- `$73` `LDB ,X` (48_indexed_transfer.md R292). -/
  | ldbX
  /-- `$74` `LDA ,X+` (48_indexed_transfer.md R293). -/
  | ldaXInc
  /-- `$75` `LDB ,X+` (48_indexed_transfer.md R294). -/
  | ldbXInc
  /-- `$76` `LDA ,-X` (48_indexed_transfer.md R295). -/
  | ldaDecX
  /-- `$77` `LDB ,-X` (48_indexed_transfer.md R296). -/
  | ldbDecX
  /-- `$78` `LDA n,X` (48_indexed_transfer.md R297). -/
  | ldaNX (n : Byte)
  /-- `$79` `LDB n,X` (48_indexed_transfer.md R298). -/
  | ldbNX (n : Byte)
  /-- `$7A` `LDA A,X` (48_indexed_transfer.md R299). -/
  | ldaAX
  /-- `$7B` `LDB A,X` (48_indexed_transfer.md R300). -/
  | ldbAX
  /-- `$7C` `LDA B,X` (48_indexed_transfer.md R301). -/
  | ldaBX
  /-- `$7D` `LDB B,X` (48_indexed_transfer.md R302). -/
  | ldbBX
  /-- `$7E` `STA ,X` (48_indexed_transfer.md R303). -/
  | staX
  /-- `$7F` `STB ,X` (48_indexed_transfer.md R304). -/
  | stbX
  /-- `$80` `STA ,X+` (48_indexed_transfer.md R305). -/
  | staXInc
  /-- `$81` `STB ,X+` (48_indexed_transfer.md R306). -/
  | stbXInc
  /-- `$82` `STA ,-X` (48_indexed_transfer.md R307). -/
  | staDecX
  /-- `$83` `STB ,-X` (48_indexed_transfer.md R308). -/
  | stbDecX
  /-- `$84` `STA n,X` (48_indexed_transfer.md R309). -/
  | staNX (n : Byte)
  /-- `$85` `STB n,X` (48_indexed_transfer.md R310). -/
  | stbNX (n : Byte)
  /-- `$86` `STA A,X` (48_indexed_transfer.md R311). -/
  | staAX
  /-- `$87` `STB A,X` (48_indexed_transfer.md R312). -/
  | stbAX
  /-- `$88` `STA B,X` (48_indexed_transfer.md R313). -/
  | staBX
  /-- `$89` `STB B,X` (48_indexed_transfer.md R314). -/
  | stbBX
  deriving DecidableEq, Repr

/-- The operand byte of a two-byte instruction (30_encoding.md R82); `none` for a one-byte instruction
(R81). -/
def Instr.operand : Instr → Option Byte
  | .nop | .tfrAB | .tfrBA | .tfrACC | .tfrCCA | .tfrXS | .tfrSX | .exgAB | .exgACC | .exgBCC
  | .exgXS | .coma | .comb | .nega | .negb | .asla | .aslb | .rola | .rolb | .inca | .incb
  | .deca | .decb | .clra | .clrb | .tsta | .tstb | .rts | .rti | .pshsA | .pshsB | .pshsCC
  | .pshsX | .pulsA | .pulsB | .pulsCC | .pulsX | .leaxDecX | .leaxXInc | .leaxAX | .leaxBX
  | .ldaX | .ldbX | .ldaXInc | .ldbXInc | .ldaDecX | .ldbDecX | .ldaAX | .ldbAX | .ldaBX
  | .ldbBX | .staX | .stbX | .staXInc | .stbXInc | .staDecX | .stbDecX | .staAX | .stbAX
  | .staBX | .stbBX => none
  | .ldaAdr v | .ldbAdr v | .ldxAdr v | .ldsAdr v | .ldaImm v | .ldbImm v | .ldxImm v
  | .ldsImm v | .staAdr v | .stbAdr v | .stxAdr v | .stsAdr v | .andaAdr v | .andbAdr v
  | .andaImm v | .andbImm v | .oraAdr v | .orbAdr v | .oraImm v | .orbImm v | .eoraAdr v
  | .eorbAdr v | .eoraImm v | .eorbImm v | .comAdr v | .andccImm v | .orccImm v | .addaAdr v
  | .addbAdr v | .addaImm v | .addbImm v | .subaAdr v | .subbAdr v | .subaImm v | .subbImm v
  | .negAdr v | .aslAdr v | .rolAdr v | .incAdr v | .decAdr v | .clrAdr v | .cmpaAdr v
  | .cmpbAdr v | .cmpxAdr v | .cmpsAdr v | .cmpaImm v | .cmpbImm v | .cmpxImm v | .cmpsImm v
  | .tstAdr v | .bitaAdr v | .bitbAdr v | .bitaImm v | .bitbImm v | .jmpAdr v | .braOffs v
  | .bmiOffs v | .bplOffs v | .beqOffs v | .bneOffs v | .bvsOffs v | .bvcOffs v | .bcsOffs v
  | .bccOffs v | .bhiOffs v | .blsOffs v | .bgtOffs v | .bgeOffs v | .bleOffs v | .bltOffs v
  | .jsrAdr v | .bsrOffs v | .leaxNX v | .ldaNX v | .ldbNX v | .staNX v | .stbNX v => some v

/-- The `#` column: how many bytes an instruction has (30_encoding.md R80, R90). -/
def Instr.length : Instr → Nat
  | .nop | .tfrAB | .tfrBA | .tfrACC | .tfrCCA | .tfrXS | .tfrSX | .exgAB | .exgACC | .exgBCC
  | .exgXS | .coma | .comb | .nega | .negb | .asla | .aslb | .rola | .rolb | .inca | .incb
  | .deca | .decb | .clra | .clrb | .tsta | .tstb | .rts | .rti | .pshsA | .pshsB | .pshsCC
  | .pshsX | .pulsA | .pulsB | .pulsCC | .pulsX | .leaxDecX | .leaxXInc | .leaxAX | .leaxBX
  | .ldaX | .ldbX | .ldaXInc | .ldbXInc | .ldaDecX | .ldbDecX | .ldaAX | .ldbAX | .ldaBX
  | .ldbBX | .staX | .stbX | .staXInc | .stbXInc | .staDecX | .stbDecX | .staAX | .stbAX
  | .staBX | .stbBX => 1
  | .ldaAdr _ | .ldbAdr _ | .ldxAdr _ | .ldsAdr _ | .ldaImm _ | .ldbImm _ | .ldxImm _
  | .ldsImm _ | .staAdr _ | .stbAdr _ | .stxAdr _ | .stsAdr _ | .andaAdr _ | .andbAdr _
  | .andaImm _ | .andbImm _ | .oraAdr _ | .orbAdr _ | .oraImm _ | .orbImm _ | .eoraAdr _
  | .eorbAdr _ | .eoraImm _ | .eorbImm _ | .comAdr _ | .andccImm _ | .orccImm _ | .addaAdr _
  | .addbAdr _ | .addaImm _ | .addbImm _ | .subaAdr _ | .subbAdr _ | .subaImm _ | .subbImm _
  | .negAdr _ | .aslAdr _ | .rolAdr _ | .incAdr _ | .decAdr _ | .clrAdr _ | .cmpaAdr _
  | .cmpbAdr _ | .cmpxAdr _ | .cmpsAdr _ | .cmpaImm _ | .cmpbImm _ | .cmpxImm _ | .cmpsImm _
  | .tstAdr _ | .bitaAdr _ | .bitbAdr _ | .bitaImm _ | .bitbImm _ | .jmpAdr _ | .braOffs _
  | .bmiOffs _ | .bplOffs _ | .beqOffs _ | .bneOffs _ | .bvsOffs _ | .bvcOffs _ | .bcsOffs _
  | .bccOffs _ | .bhiOffs _ | .blsOffs _ | .bgtOffs _ | .bgeOffs _ | .bleOffs _ | .bltOffs _
  | .jsrAdr _ | .bsrOffs _ | .leaxNX _ | .ldaNX _ | .ldbNX _ | .staNX _ | .stbNX _ => 2

end Sys2Proof
end

