-- ==== Sys2Proof/Machine/Dispatch.lean ====
section
/-!
DEFINITION. One arm for each instruction: a direct call of its meaning.
-/

namespace Sys2Proof.Machine

/-- Execute one instruction on the state after its fetch (30_encoding.md R84). -/
def exec (i : Instr) (s : State) : Host.Outcome State Fault Refusal :=
  match i with
  | .nop => Sys2Proof.Machine.execNop s
  | .tfrAB => Sys2Proof.Machine.execTfrAB s
  | .tfrBA => Sys2Proof.Machine.execTfrBA s
  | .tfrACC => Sys2Proof.Machine.execTfrACC s
  | .tfrCCA => Sys2Proof.Machine.execTfrCCA s
  | .tfrXS => Sys2Proof.Machine.execTfrXS s
  | .tfrSX => Sys2Proof.Machine.execTfrSX s
  | .exgAB => Sys2Proof.Machine.execExgAB s
  | .exgACC => Sys2Proof.Machine.execExgACC s
  | .exgBCC => Sys2Proof.Machine.execExgBCC s
  | .exgXS => Sys2Proof.Machine.execExgXS s
  | .ldaAdr adr => Sys2Proof.Machine.execLdaAdr adr s
  | .ldbAdr adr => Sys2Proof.Machine.execLdbAdr adr s
  | .ldxAdr adr => Sys2Proof.Machine.execLdxAdr adr s
  | .ldsAdr adr => Sys2Proof.Machine.execLdsAdr adr s
  | .ldaImm data => Sys2Proof.Machine.execLdaImm data s
  | .ldbImm data => Sys2Proof.Machine.execLdbImm data s
  | .ldxImm data => Sys2Proof.Machine.execLdxImm data s
  | .ldsImm data => Sys2Proof.Machine.execLdsImm data s
  | .staAdr adr => Sys2Proof.Machine.execStaAdr adr s
  | .stbAdr adr => Sys2Proof.Machine.execStbAdr adr s
  | .stxAdr adr => Sys2Proof.Machine.execStxAdr adr s
  | .stsAdr adr => Sys2Proof.Machine.execStsAdr adr s
  | .andaAdr adr => Sys2Proof.Machine.execAndaAdr adr s
  | .andbAdr adr => Sys2Proof.Machine.execAndbAdr adr s
  | .andaImm data => Sys2Proof.Machine.execAndaImm data s
  | .andbImm data => Sys2Proof.Machine.execAndbImm data s
  | .oraAdr adr => Sys2Proof.Machine.execOraAdr adr s
  | .orbAdr adr => Sys2Proof.Machine.execOrbAdr adr s
  | .oraImm data => Sys2Proof.Machine.execOraImm data s
  | .orbImm data => Sys2Proof.Machine.execOrbImm data s
  | .eoraAdr adr => Sys2Proof.Machine.execEoraAdr adr s
  | .eorbAdr adr => Sys2Proof.Machine.execEorbAdr adr s
  | .eoraImm data => Sys2Proof.Machine.execEoraImm data s
  | .eorbImm data => Sys2Proof.Machine.execEorbImm data s
  | .coma => Sys2Proof.Machine.execComa s
  | .comb => Sys2Proof.Machine.execComb s
  | .comAdr adr => Sys2Proof.Machine.execComAdr adr s
  | .andccImm data => Sys2Proof.Machine.execAndccImm data s
  | .orccImm data => Sys2Proof.Machine.execOrccImm data s
  | .addaAdr adr => Sys2Proof.Machine.execAddaAdr adr s
  | .addbAdr adr => Sys2Proof.Machine.execAddbAdr adr s
  | .addaImm data => Sys2Proof.Machine.execAddaImm data s
  | .addbImm data => Sys2Proof.Machine.execAddbImm data s
  | .subaAdr adr => Sys2Proof.Machine.execSubaAdr adr s
  | .subbAdr adr => Sys2Proof.Machine.execSubbAdr adr s
  | .subaImm data => Sys2Proof.Machine.execSubaImm data s
  | .subbImm data => Sys2Proof.Machine.execSubbImm data s
  | .nega => Sys2Proof.Machine.execNega s
  | .negb => Sys2Proof.Machine.execNegb s
  | .negAdr adr => Sys2Proof.Machine.execNegAdr adr s
  | .asla => Sys2Proof.Machine.execAsla s
  | .aslb => Sys2Proof.Machine.execAslb s
  | .aslAdr adr => Sys2Proof.Machine.execAslAdr adr s
  | .rola => Sys2Proof.Machine.execRola s
  | .rolb => Sys2Proof.Machine.execRolb s
  | .rolAdr adr => Sys2Proof.Machine.execRolAdr adr s
  | .inca => Sys2Proof.Machine.execInca s
  | .incb => Sys2Proof.Machine.execIncb s
  | .incAdr adr => Sys2Proof.Machine.execIncAdr adr s
  | .deca => Sys2Proof.Machine.execDeca s
  | .decb => Sys2Proof.Machine.execDecb s
  | .decAdr adr => Sys2Proof.Machine.execDecAdr adr s
  | .clra => Sys2Proof.Machine.execClra s
  | .clrb => Sys2Proof.Machine.execClrb s
  | .clrAdr adr => Sys2Proof.Machine.execClrAdr adr s
  | .cmpaAdr adr => Sys2Proof.Machine.execCmpaAdr adr s
  | .cmpbAdr adr => Sys2Proof.Machine.execCmpbAdr adr s
  | .cmpxAdr adr => Sys2Proof.Machine.execCmpxAdr adr s
  | .cmpsAdr adr => Sys2Proof.Machine.execCmpsAdr adr s
  | .cmpaImm data => Sys2Proof.Machine.execCmpaImm data s
  | .cmpbImm data => Sys2Proof.Machine.execCmpbImm data s
  | .cmpxImm data => Sys2Proof.Machine.execCmpxImm data s
  | .cmpsImm data => Sys2Proof.Machine.execCmpsImm data s
  | .tsta => Sys2Proof.Machine.execTsta s
  | .tstb => Sys2Proof.Machine.execTstb s
  | .tstAdr adr => Sys2Proof.Machine.execTstAdr adr s
  | .bitaAdr adr => Sys2Proof.Machine.execBitaAdr adr s
  | .bitbAdr adr => Sys2Proof.Machine.execBitbAdr adr s
  | .bitaImm data => Sys2Proof.Machine.execBitaImm data s
  | .bitbImm data => Sys2Proof.Machine.execBitbImm data s
  | .jmpAdr adr => Sys2Proof.Machine.execJmpAdr adr s
  | .braOffs offs => Sys2Proof.Machine.execBraOffs offs s
  | .bmiOffs offs => Sys2Proof.Machine.execBmiOffs offs s
  | .bplOffs offs => Sys2Proof.Machine.execBplOffs offs s
  | .beqOffs offs => Sys2Proof.Machine.execBeqOffs offs s
  | .bneOffs offs => Sys2Proof.Machine.execBneOffs offs s
  | .bvsOffs offs => Sys2Proof.Machine.execBvsOffs offs s
  | .bvcOffs offs => Sys2Proof.Machine.execBvcOffs offs s
  | .bcsOffs offs => Sys2Proof.Machine.execBcsOffs offs s
  | .bccOffs offs => Sys2Proof.Machine.execBccOffs offs s
  | .bhiOffs offs => Sys2Proof.Machine.execBhiOffs offs s
  | .blsOffs offs => Sys2Proof.Machine.execBlsOffs offs s
  | .bgtOffs offs => Sys2Proof.Machine.execBgtOffs offs s
  | .bgeOffs offs => Sys2Proof.Machine.execBgeOffs offs s
  | .bleOffs offs => Sys2Proof.Machine.execBleOffs offs s
  | .bltOffs offs => Sys2Proof.Machine.execBltOffs offs s
  | .jsrAdr adr => Sys2Proof.Machine.execJsrAdr adr s
  | .rts => Sys2Proof.Machine.execRts s
  | .bsrOffs offs => Sys2Proof.Machine.execBsrOffs offs s
  | .rti => Sys2Proof.Machine.execRti s
  | .pshsA => Sys2Proof.Machine.execPshsA s
  | .pshsB => Sys2Proof.Machine.execPshsB s
  | .pshsCC => Sys2Proof.Machine.execPshsCC s
  | .pshsX => Sys2Proof.Machine.execPshsX s
  | .pulsA => Sys2Proof.Machine.execPulsA s
  | .pulsB => Sys2Proof.Machine.execPulsB s
  | .pulsCC => Sys2Proof.Machine.execPulsCC s
  | .pulsX => Sys2Proof.Machine.execPulsX s
  | .leaxDecX => Sys2Proof.Machine.execLeaxDecX s
  | .leaxXInc => Sys2Proof.Machine.execLeaxXInc s
  | .leaxNX n => Sys2Proof.Machine.execLeaxNX n s
  | .leaxAX => Sys2Proof.Machine.execLeaxAX s
  | .leaxBX => Sys2Proof.Machine.execLeaxBX s
  | .ldaX => Sys2Proof.Machine.execLdaX s
  | .ldbX => Sys2Proof.Machine.execLdbX s
  | .ldaXInc => Sys2Proof.Machine.execLdaXInc s
  | .ldbXInc => Sys2Proof.Machine.execLdbXInc s
  | .ldaDecX => Sys2Proof.Machine.execLdaDecX s
  | .ldbDecX => Sys2Proof.Machine.execLdbDecX s
  | .ldaNX n => Sys2Proof.Machine.execLdaNX n s
  | .ldbNX n => Sys2Proof.Machine.execLdbNX n s
  | .ldaAX => Sys2Proof.Machine.execLdaAX s
  | .ldbAX => Sys2Proof.Machine.execLdbAX s
  | .ldaBX => Sys2Proof.Machine.execLdaBX s
  | .ldbBX => Sys2Proof.Machine.execLdbBX s
  | .staX => Sys2Proof.Machine.execStaX s
  | .stbX => Sys2Proof.Machine.execStbX s
  | .staXInc => Sys2Proof.Machine.execStaXInc s
  | .stbXInc => Sys2Proof.Machine.execStbXInc s
  | .staDecX => Sys2Proof.Machine.execStaDecX s
  | .stbDecX => Sys2Proof.Machine.execStbDecX s
  | .staNX n => Sys2Proof.Machine.execStaNX n s
  | .stbNX n => Sys2Proof.Machine.execStbNX n s
  | .staAX => Sys2Proof.Machine.execStaAX s
  | .stbAX => Sys2Proof.Machine.execStbAX s
  | .staBX => Sys2Proof.Machine.execStaBX s
  | .stbBX => Sys2Proof.Machine.execStbBX s

end Sys2Proof.Machine
end

