-- ==== Sys2Proof/Decode.lean ====
section
/-!
DEFINITION. Decoding and encoding (30_encoding.md). The opcode byte alone determines the instruction
(R80), so the decoder is a table on the whole byte; R90 gives the table, R82 the place of the operand,
R86 the opcodes without a meaning.
-/

namespace Sys2Proof

/-- What an opcode byte stands for. -/
inductive Shape where
  /-- Format F1 (30_encoding.md R81): the whole instruction. -/
  | one (i : Instr)
  /-- Format F2 (30_encoding.md R82): an instruction for every operand byte. -/
  | two (f : Byte → Instr)

/-- Opcodes `$00` to `$0F` (30_encoding.md R90). -/
def opcodeRow0 : List Shape :=
  [.one .nop, .one .tfrAB, .one .tfrBA, .one .tfrACC, .one .tfrCCA, .one .tfrXS, .one .tfrSX,
   .one .exgAB, .one .exgACC, .one .exgBCC, .one .exgXS, .two .ldaAdr, .two .ldbAdr,
   .two .ldxAdr, .two .ldsAdr, .two .ldaImm]

/-- Opcodes `$10` to `$1F` (30_encoding.md R90). -/
def opcodeRow1 : List Shape :=
  [.two .ldbImm, .two .ldxImm, .two .ldsImm, .two .staAdr, .two .stbAdr, .two .stxAdr,
   .two .stsAdr, .two .andaAdr, .two .andbAdr, .two .andaImm, .two .andbImm, .two .oraAdr,
   .two .orbAdr, .two .oraImm, .two .orbImm, .two .eoraAdr]

/-- Opcodes `$20` to `$2F` (30_encoding.md R90). -/
def opcodeRow2 : List Shape :=
  [.two .eorbAdr, .two .eoraImm, .two .eorbImm, .one .coma, .one .comb, .two .comAdr,
   .two .andccImm, .two .orccImm, .two .addaAdr, .two .addbAdr, .two .addaImm, .two .addbImm,
   .two .subaAdr, .two .subbAdr, .two .subaImm, .two .subbImm]

/-- Opcodes `$30` to `$3F` (30_encoding.md R90). -/
def opcodeRow3 : List Shape :=
  [.one .nega, .one .negb, .two .negAdr, .one .asla, .one .aslb, .two .aslAdr, .one .rola,
   .one .rolb, .two .rolAdr, .one .inca, .one .incb, .two .incAdr, .one .deca, .one .decb,
   .two .decAdr, .one .clra]

/-- Opcodes `$40` to `$4F` (30_encoding.md R90). -/
def opcodeRow4 : List Shape :=
  [.one .clrb, .two .clrAdr, .two .cmpaAdr, .two .cmpbAdr, .two .cmpxAdr, .two .cmpsAdr,
   .two .cmpaImm, .two .cmpbImm, .two .cmpxImm, .two .cmpsImm, .one .tsta, .one .tstb,
   .two .tstAdr, .two .bitaAdr, .two .bitbAdr, .two .bitaImm]

/-- Opcodes `$50` to `$5F` (30_encoding.md R90). -/
def opcodeRow5 : List Shape :=
  [.two .bitbImm, .two .jmpAdr, .two .braOffs, .two .bmiOffs, .two .bplOffs, .two .beqOffs,
   .two .bneOffs, .two .bvsOffs, .two .bvcOffs, .two .bcsOffs, .two .bccOffs, .two .bhiOffs,
   .two .blsOffs, .two .bgtOffs, .two .bgeOffs, .two .bleOffs]

/-- Opcodes `$60` to `$6F` (30_encoding.md R90). -/
def opcodeRow6 : List Shape :=
  [.two .bltOffs, .two .jsrAdr, .one .rts, .two .bsrOffs, .one .rti, .one .pshsA, .one .pshsB,
   .one .pshsCC, .one .pshsX, .one .pulsA, .one .pulsB, .one .pulsCC, .one .pulsX,
   .one .leaxDecX, .one .leaxXInc, .two .leaxNX]

/-- Opcodes `$70` to `$7F` (30_encoding.md R90). -/
def opcodeRow7 : List Shape :=
  [.one .leaxAX, .one .leaxBX, .one .ldaX, .one .ldbX, .one .ldaXInc, .one .ldbXInc,
   .one .ldaDecX, .one .ldbDecX, .two .ldaNX, .two .ldbNX, .one .ldaAX, .one .ldbAX,
   .one .ldaBX, .one .ldbBX, .one .staX, .one .stbX]

/-- Opcodes `$80` to `$89` (30_encoding.md R90). -/
def opcodeRow8 : List Shape :=
  [.one .staXInc, .one .stbXInc, .one .staDecX, .one .stbDecX, .two .staNX, .two .stbNX,
   .one .staAX, .one .stbAX, .one .staBX, .one .stbBX]

/-- The opcode map: the place in the list is the opcode (30_encoding.md R85: assigned consecutively,
with no holes). -/
def opcodeTable : List Shape :=
  opcodeRow0 ++ opcodeRow1 ++ opcodeRow2 ++ opcodeRow3 ++ opcodeRow4 ++ opcodeRow5 ++
    opcodeRow6 ++ opcodeRow7 ++ opcodeRow8

/-- What an opcode byte stands for; `none` for `$8A` to `$FF` (30_encoding.md R86). -/
def decodeOp (op : Byte) : Option Shape :=
  opcodeTable[op.toNat]?

/-- Why bytes are not an instruction. -/
inductive DecodeError where
  /-- There is no byte. -/
  | noBytes
  /-- The first byte is an unassigned opcode (30_encoding.md R86). -/
  | illegalOpcode (op : Byte)
  /-- A two-byte opcode without its operand byte. -/
  | noOperand (op : Byte)
  deriving DecidableEq, Repr

/-- The first instruction of a list of bytes, and the bytes after it (30_encoding.md R84). -/
def decode : List Byte → Except DecodeError (Instr × List Byte)
  | [] => .error .noBytes
  | op :: rest =>
    match decodeOp op with
    | none => .error (.illegalOpcode op)
    | some (.one i) => .ok (i, rest)
    | some (.two f) =>
      match rest with
      | [] => .error (.noOperand op)
      | operand :: rest2 => .ok (f operand, rest2)

/-- The bytes of an instruction: its opcode, then its operand (30_encoding.md R81, R82, R90). -/
def encode : Instr → List Byte
  | .nop => [0x00]
  | .tfrAB => [0x01]
  | .tfrBA => [0x02]
  | .tfrACC => [0x03]
  | .tfrCCA => [0x04]
  | .tfrXS => [0x05]
  | .tfrSX => [0x06]
  | .exgAB => [0x07]
  | .exgACC => [0x08]
  | .exgBCC => [0x09]
  | .exgXS => [0x0A]
  | .ldaAdr adr => [0x0B, adr]
  | .ldbAdr adr => [0x0C, adr]
  | .ldxAdr adr => [0x0D, adr]
  | .ldsAdr adr => [0x0E, adr]
  | .ldaImm data => [0x0F, data]
  | .ldbImm data => [0x10, data]
  | .ldxImm data => [0x11, data]
  | .ldsImm data => [0x12, data]
  | .staAdr adr => [0x13, adr]
  | .stbAdr adr => [0x14, adr]
  | .stxAdr adr => [0x15, adr]
  | .stsAdr adr => [0x16, adr]
  | .andaAdr adr => [0x17, adr]
  | .andbAdr adr => [0x18, adr]
  | .andaImm data => [0x19, data]
  | .andbImm data => [0x1A, data]
  | .oraAdr adr => [0x1B, adr]
  | .orbAdr adr => [0x1C, adr]
  | .oraImm data => [0x1D, data]
  | .orbImm data => [0x1E, data]
  | .eoraAdr adr => [0x1F, adr]
  | .eorbAdr adr => [0x20, adr]
  | .eoraImm data => [0x21, data]
  | .eorbImm data => [0x22, data]
  | .coma => [0x23]
  | .comb => [0x24]
  | .comAdr adr => [0x25, adr]
  | .andccImm data => [0x26, data]
  | .orccImm data => [0x27, data]
  | .addaAdr adr => [0x28, adr]
  | .addbAdr adr => [0x29, adr]
  | .addaImm data => [0x2A, data]
  | .addbImm data => [0x2B, data]
  | .subaAdr adr => [0x2C, adr]
  | .subbAdr adr => [0x2D, adr]
  | .subaImm data => [0x2E, data]
  | .subbImm data => [0x2F, data]
  | .nega => [0x30]
  | .negb => [0x31]
  | .negAdr adr => [0x32, adr]
  | .asla => [0x33]
  | .aslb => [0x34]
  | .aslAdr adr => [0x35, adr]
  | .rola => [0x36]
  | .rolb => [0x37]
  | .rolAdr adr => [0x38, adr]
  | .inca => [0x39]
  | .incb => [0x3A]
  | .incAdr adr => [0x3B, adr]
  | .deca => [0x3C]
  | .decb => [0x3D]
  | .decAdr adr => [0x3E, adr]
  | .clra => [0x3F]
  | .clrb => [0x40]
  | .clrAdr adr => [0x41, adr]
  | .cmpaAdr adr => [0x42, adr]
  | .cmpbAdr adr => [0x43, adr]
  | .cmpxAdr adr => [0x44, adr]
  | .cmpsAdr adr => [0x45, adr]
  | .cmpaImm data => [0x46, data]
  | .cmpbImm data => [0x47, data]
  | .cmpxImm data => [0x48, data]
  | .cmpsImm data => [0x49, data]
  | .tsta => [0x4A]
  | .tstb => [0x4B]
  | .tstAdr adr => [0x4C, adr]
  | .bitaAdr adr => [0x4D, adr]
  | .bitbAdr adr => [0x4E, adr]
  | .bitaImm data => [0x4F, data]
  | .bitbImm data => [0x50, data]
  | .jmpAdr adr => [0x51, adr]
  | .braOffs offs => [0x52, offs]
  | .bmiOffs offs => [0x53, offs]
  | .bplOffs offs => [0x54, offs]
  | .beqOffs offs => [0x55, offs]
  | .bneOffs offs => [0x56, offs]
  | .bvsOffs offs => [0x57, offs]
  | .bvcOffs offs => [0x58, offs]
  | .bcsOffs offs => [0x59, offs]
  | .bccOffs offs => [0x5A, offs]
  | .bhiOffs offs => [0x5B, offs]
  | .blsOffs offs => [0x5C, offs]
  | .bgtOffs offs => [0x5D, offs]
  | .bgeOffs offs => [0x5E, offs]
  | .bleOffs offs => [0x5F, offs]
  | .bltOffs offs => [0x60, offs]
  | .jsrAdr adr => [0x61, adr]
  | .rts => [0x62]
  | .bsrOffs offs => [0x63, offs]
  | .rti => [0x64]
  | .pshsA => [0x65]
  | .pshsB => [0x66]
  | .pshsCC => [0x67]
  | .pshsX => [0x68]
  | .pulsA => [0x69]
  | .pulsB => [0x6A]
  | .pulsCC => [0x6B]
  | .pulsX => [0x6C]
  | .leaxDecX => [0x6D]
  | .leaxXInc => [0x6E]
  | .leaxNX n => [0x6F, n]
  | .leaxAX => [0x70]
  | .leaxBX => [0x71]
  | .ldaX => [0x72]
  | .ldbX => [0x73]
  | .ldaXInc => [0x74]
  | .ldbXInc => [0x75]
  | .ldaDecX => [0x76]
  | .ldbDecX => [0x77]
  | .ldaNX n => [0x78, n]
  | .ldbNX n => [0x79, n]
  | .ldaAX => [0x7A]
  | .ldbAX => [0x7B]
  | .ldaBX => [0x7C]
  | .ldbBX => [0x7D]
  | .staX => [0x7E]
  | .stbX => [0x7F]
  | .staXInc => [0x80]
  | .stbXInc => [0x81]
  | .staDecX => [0x82]
  | .stbDecX => [0x83]
  | .staNX n => [0x84, n]
  | .stbNX n => [0x85, n]
  | .staAX => [0x86]
  | .stbAX => [0x87]
  | .staBX => [0x88]
  | .stbBX => [0x89]

/-- Byte `k` of an instruction whose bits are numbered as the opcode table numbers them: the first byte
is bits 7 to 0, the second bits 15 to 8. -/
def tableByte (w k : Nat) : Byte :=
  BitVec.ofNat 8 (w / 256 ^ k)

/-- The two bytes of a table word: the bits above `nbits` are 0. -/
def tableBytes (nbits w : Nat) : List Byte :=
  [tableByte (w % 2 ^ nbits) 0, tableByte (w % 2 ^ nbits) 1]

/-- The instruction the decoder reads from the bits of a table word; `none` where it refuses. -/
def decodeTableWord (nbits w : Nat) : Option Instr :=
  match decode (tableBytes nbits w) with
  | .ok (i, _) => some i
  | .error _ => none

end Sys2Proof
end

