-- ==== Sys2Proof/Machine/Fetch.lean ====
section
/-!
DEFINITION. Fetching one instruction (30_encoding.md R84), and placing one where it is fetched.
-/

namespace Sys2Proof.Machine

/-- Read the byte at `pc`, then `pc <- (pc + 1) mod 256` (30_encoding.md R84). -/
def State.fetchByte (m : State) : Byte × State :=
  let v := m.load m.pc
  (v.1, v.2.jump (Config.addrAdd m.pc 1))

/-- Fetch and decode (30_encoding.md R84): the opcode, the fault of an unassigned opcode before any
operand is read (R86), the operand of a two-byte instruction. The state that comes with the
instruction has `pc` at the next instruction. -/
def State.fetch (m : State) : Except Fault (Instr × State) :=
  let op := m.fetchByte
  match decodeOp op.1 with
  | none =>
    match Config.illegalOpcode with
    | .fault => .error (.illegalOpcode op.1)
  | some (.one i) => .ok (i, op.2)
  | some (.two f) =>
    let operand := op.2.fetchByte
    .ok (f operand.1, operand.2)

/-- Put bytes from an address on, in rising order modulo 256 (20_memory.md R56), as a loader outside the
processor does, into whatever kind of memory. -/
def Memory.place : Memory → Byte → List Byte → Memory
  | mem, _, [] => mem
  | mem, a, v :: vs => Memory.place (mem.insertCell a.toNat v) (Config.addrAdd a 1) vs

/-- The machine right after power-on with a launch image: the image stands in memory before RESET is
released (92_eei_decisions.md D14; log 21). -/
def State.launch (image : Memory) : State :=
  { State.reset with mem := image, image := image }

/-- Make sure that the next boundary runs an instruction: no event of the environment comes first
(log 25). -/
def State.atRunBoundary (m : State) : State :=
  match m.inputs with
  | [] => m
  | later => { m with inputs := .run :: later }

end Sys2Proof.Machine
end

