-- ==== Sys2Proof/Machine/Step.lean ====
section
/-!
DEFINITION. One step: what happens at one instruction boundary (30_encoding.md R84, 60_exceptions.md
R324, R334). With no event from the environment, one instruction is fetched and executed.
-/

namespace Sys2Proof.Machine

/-- Fetch the instruction at `pc` and execute it (30_encoding.md R84). -/
def State.runInstruction (m : State) : Result :=
  match m.fetch with
  | .error f => .fault f
  | .ok (i, fetched) => exec i fetched

/-- One step (30_encoding.md R84, 60_exceptions.md R334; log 13). -/
def step (m : State) : Host.Outcome State Fault Refusal :=
  match m.inputs with
  | [] => m.runInstruction
  | .run :: later => ({ m with inputs := later }).runInstruction
  | .irq :: later => .next ({ m with inputs := later }).takeIrq
  | .reset :: later => .next ({ m with inputs := later }).takeReset
  | .resetInEntry pushes :: later => .next (({ m with inputs := later }).cutIrqByReset pushes)

/-- The state with the instruction of a table word placed where `step` fetches next, and no event of
the environment before it (log 21, log 25). -/
def State.withFetchWord (s : State) (nbits w : Nat) : State :=
  ({ s with mem := s.mem.place s.pc (tableBytes nbits w) }).atRunBoundary

end Sys2Proof.Machine
end

