-- ==== Sys2Proof/Machine/Timing.lean ====
section
/-!
DEFINITION. Clock cycles, transcribed as information (70_reset_and_hazards.md R355, R357). No step
reads them and no state observes time (log 19).
-/

namespace Sys2Proof

/-- The `~` column: clock cycles to fetch and execute (70_reset_and_hazards.md R355). -/
def Instr.cycles : Instr → Nat
  | .nop | .tfrAB | .tfrBA | .tfrACC | .tfrCCA | .tfrXS | .tfrSX | .tsta | .tstb => 3
  | .ldaImm _ | .ldbImm _ | .ldxImm _ | .ldsImm _ | .coma | .comb | .asla | .aslb | .rola
  | .rolb | .inca | .incb | .deca | .decb | .clra | .clrb | .jmpAdr _ | .rts | .pulsA | .pulsB
  | .pulsCC | .pulsX | .leaxDecX | .leaxXInc | .ldaX | .ldbX | .staX | .stbX => 4
  | .exgAB | .exgACC | .exgBCC | .exgXS | .ldaAdr _ | .ldbAdr _ | .ldxAdr _ | .ldsAdr _
  | .staAdr _ | .stbAdr _ | .stxAdr _ | .stsAdr _ | .nega | .negb | .clrAdr _ | .cmpaImm _
  | .cmpbImm _ | .cmpxImm _ | .cmpsImm _ | .tstAdr _ | .bitaImm _ | .bitbImm _ | .pshsA
  | .pshsB | .pshsCC | .pshsX | .leaxAX | .leaxBX | .ldaXInc | .ldbXInc | .ldaDecX | .ldbDecX
  | .staXInc | .stbXInc | .staDecX | .stbDecX => 5
  | .andaImm _ | .andbImm _ | .oraImm _ | .orbImm _ | .eoraAdr _ | .eorbAdr _ | .eoraImm _
  | .eorbImm _ | .comAdr _ | .andccImm _ | .orccImm _ | .addaImm _ | .addbImm _ | .subaImm _
  | .subbImm _ | .aslAdr _ | .rolAdr _ | .incAdr _ | .decAdr _ | .cmpaAdr _ | .cmpbAdr _
  | .cmpxAdr _ | .cmpsAdr _ | .bitaAdr _ | .bitbAdr _ | .braOffs _ | .bmiOffs _ | .bplOffs _
  | .beqOffs _ | .bneOffs _ | .bvsOffs _ | .bvcOffs _ | .bcsOffs _ | .bccOffs _ | .bhiOffs _
  | .blsOffs _ | .bgtOffs _ | .bgeOffs _ | .bleOffs _ | .bltOffs _ | .leaxNX _ | .ldaAX
  | .ldbAX | .ldaBX | .ldbBX | .staAX | .stbAX | .staBX | .stbBX => 6
  | .andaAdr _ | .andbAdr _ | .oraAdr _ | .orbAdr _ | .addaAdr _ | .addbAdr _ | .subaAdr _
  | .subbAdr _ | .negAdr _ | .jsrAdr _ | .ldaNX _ | .ldbNX _ | .staNX _ | .stbNX _ => 7
  | .bsrOffs _ => 8
  | .rti => 12

/-- The cycles of the coming step; `none` where the spec has no count: an event of the environment, or
an unassigned opcode (70_reset_and_hazards.md R357). -/
def Machine.State.stepCycles (m : Machine.State) : Option Nat :=
  match m.inputs, m.fetch with
  | [], .ok (i, _) => some i.cycles
  | .run :: _, .ok (i, _) => some i.cycles
  | _, _ => none

/-- The cycles of a run of `k` steps: the sum of the counts of the instructions executed
(70_reset_and_hazards.md R357). -/
def Machine.State.runCycles : Nat → Machine.State → Option Nat
  | 0, _ => some 0
  | k + 1, m =>
    match m.stepCycles, Machine.step m with
    | some n, .next t => (Machine.State.runCycles k t).map (n + ·)
    | _, _ => none

end Sys2Proof
end

