-- ==== Sys2Proof/WellFormed.lean ====
section
/-!
DEFINITION. What is well formed. Every value of an operand byte is legal (30_encoding.md R87), so an
instruction term has nothing to violate but the agreement of its length with its operand; bytes can be
ill formed: no byte, an unassigned opcode (R86), or the wrong number of bytes for the opcode (R91).
-/

namespace Sys2Proof

/-- An instruction has one byte and no operand, or two bytes and one operand (30_encoding.md R80 to
R82). -/
def Instr.wf (i : Instr) : Bool :=
  match i.operand with
  | none => i.length == 1
  | some _ => i.length == 2

/-- The opcodes the tables assign (30_encoding.md R85, R86). -/
def opcodeAssigned (op : Byte) : Bool :=
  op.toNat < 0x8A

/-- The closed ranges of two-byte opcodes (30_encoding.md R91). -/
def twoByteRanges : List (Nat × Nat) :=
  [(0x0B, 0x22), (0x25, 0x2F), (0x32, 0x32), (0x35, 0x35), (0x38, 0x38), (0x3B, 0x3B), (0x3E, 0x3E),
   (0x41, 0x49), (0x4C, 0x61), (0x63, 0x63), (0x6F, 0x6F), (0x78, 0x79), (0x84, 0x85)]

/-- The opcode takes an operand byte (30_encoding.md R91). -/
def opcodeHasOperand (op : Byte) : Bool :=
  twoByteRanges.any fun range => range.1 ≤ op.toNat && op.toNat ≤ range.2

/-- These bytes are exactly one instruction. -/
def codeWf : List Byte → Bool
  | [op] => opcodeAssigned op && !opcodeHasOperand op
  | [op, _] => opcodeAssigned op && opcodeHasOperand op
  | _ => false

end Sys2Proof
end

