-- ==== Sys2Proof/Safety.lean ====
section
/-!
DEFINITION. The terms in which statements about the machine are made: what a program sees of a state,
what an instruction may write, the flags of the arithmetic in closed form, and the end of a run. A run
is safe as long as no step faults; the one fault is the fetch of an unassigned opcode
(60_exceptions.md R321).
-/

namespace Sys2Proof.Machine

/-- The registers a program can see (10_state.md R20 to R24). -/
structure Regs where
  a : Byte
  b : Byte
  x : Byte
  s : Byte
  pc : Byte
  cc : CC
  deriving DecidableEq, Repr

/-- The registers of a state. -/
def State.regs (m : State) : Regs :=
  ⟨m.a, m.b, m.x, m.s, m.pc, m.cc⟩

/-- The instruction completes, leaves exactly these registers, and changes no byte of memory, nothing
of the launch image and no event that the environment has yet to cause. -/
def RunsTo (i : Instr) (m : State) (r : Regs) : Prop :=
  ∃ t, exec i m = .next t ∧ t.regs = r ∧ t.inputs = m.inputs ∧ t.image = m.image ∧
    ∀ adr, t.mem.read adr = m.mem.read adr

/-- The instruction completes, leaves exactly these registers, stores the byte `v` at `adr`, and
changes no other byte of memory, nothing of the launch image and no event that the environment has yet
to cause. -/
def StoresTo (i : Instr) (m : State) (r : Regs) (adr v : Byte) : Prop :=
  ∃ t, exec i m = .next t ∧ t.regs = r ∧ t.inputs = m.inputs ∧ t.image = m.image ∧
    t.mem.read adr = v ∧
    ∀ other, other ≠ adr → t.mem.read other = m.mem.read other

/-- One row of the opcode table: the instruction is encoded as these bytes, these bytes decode to it,
they are as many as its length says, and it takes this many cycles. -/
def RowIs (i : Instr) (bytes : List Byte) (cycles : Nat) : Prop :=
  encode i = bytes ∧ decode bytes = .ok (i, []) ∧ i.length = bytes.length ∧ i.cycles = cycles

/-- Flags of a logic result, H as given: `_ a a 0 0` (42_logic.md R150). -/
def logicFlags (h : Bool) (r : Byte) : CC :=
  ⟨h, r.msb, decide (r = 0), false, false⟩

/-- Flags of the sum of two bytes (00_scope.md R10, R11). -/
def addFlags (p q : Byte) : CC :=
  ⟨decide (16 ≤ p.toNat % 16 + q.toNat % 16), (p + q).msb, decide (p + q = 0),
    decide (p.toInt + q.toInt < -128 ∨ 127 < p.toInt + q.toInt), decide (256 ≤ p.toNat + q.toNat)⟩

/-- Flags of the difference of two bytes, H as given (00_scope.md R10, R12; the borrow is the spec's
choice, log 7). -/
def subFlags (h : Bool) (p q : Byte) : CC :=
  ⟨h, (p - q).msb, decide (p = q),
    decide (p.toInt - q.toInt < -128 ∨ 127 < p.toInt - q.toInt), decide (p.toNat < q.toNat)⟩

/-- The byte shifted left by one, `low` moved in (00_scope.md R13). -/
def shiftedLeft (v : Byte) (low : Bool) : Byte :=
  v + v + (if low then 1 else 0)

/-- Flags of a left shift, H as given (00_scope.md R10, R13; the functions are the spec's choice,
log 8). -/
def shiftFlags (h : Bool) (v : Byte) (low : Bool) : CC :=
  ⟨h, (shiftedLeft v low).msb, decide (shiftedLeft v low = 0), v.msb != v.getLsbD 6, v.msb⟩

/-- After this comparison of `p` with `q`, each branch is taken exactly when `p` stands in its order to
`q`: unsigned for BCS, BCC, BHI, BLS, two's complement for BGT, BGE, BLE, BLT (45_jump.md R241). -/
def DecidesTheOrder (compare : Instr) (m : State) (p q : Byte) : Prop :=
  ∃ t, exec compare m = .next t ∧ ∀ v,
    exec (.beqOffs v) t = .next { t with pc := if p = q then m.pc + v else m.pc } ∧
    exec (.bneOffs v) t = .next { t with pc := if p ≠ q then m.pc + v else m.pc } ∧
    exec (.bcsOffs v) t = .next { t with pc := if p.toNat < q.toNat then m.pc + v else m.pc } ∧
    exec (.bccOffs v) t = .next { t with pc := if q.toNat ≤ p.toNat then m.pc + v else m.pc } ∧
    exec (.bhiOffs v) t = .next { t with pc := if q.toNat < p.toNat then m.pc + v else m.pc } ∧
    exec (.blsOffs v) t = .next { t with pc := if p.toNat ≤ q.toNat then m.pc + v else m.pc } ∧
    exec (.bgtOffs v) t = .next { t with pc := if q.toInt < p.toInt then m.pc + v else m.pc } ∧
    exec (.bgeOffs v) t = .next { t with pc := if q.toInt ≤ p.toInt then m.pc + v else m.pc } ∧
    exec (.bleOffs v) t = .next { t with pc := if p.toInt ≤ q.toInt then m.pc + v else m.pc } ∧
    exec (.bltOffs v) t = .next { t with pc := if p.toInt < q.toInt then m.pc + v else m.pc }

/-- The coming step runs an instruction: no IRQ and no RESET at this boundary (60_exceptions.md
R334). -/
def State.runsNext (m : State) : Bool :=
  match m.inputs with
  | [] => true
  | .run :: _ => true
  | _ => false

/-- The state on which `exec` runs an instruction that was fetched at `pc` (30_encoding.md R84): `pc`
at the next instruction, MA at the instruction's last byte, this boundary passed. -/
def State.fetched (m : State) (i : Instr) : State :=
  { m with
    pc := m.pc + BitVec.ofNat 8 i.length
    ma := m.pc + BitVec.ofNat 8 (i.length - 1)
    inputs := m.inputs.tail }

/-- `HALT_CONVENTION` (70_reset_and_hazards.md R356; log 20): at `pc` stands `JMP` to itself or
`BRA $FE`. -/
def State.atEndOfRun (m : State) : Prop :=
  (m.mem.read m.pc = 0x51 ∧ m.mem.read (m.pc + 1) = m.pc) ∨
    (m.mem.read m.pc = 0x52 ∧ m.mem.read (m.pc + 1) = 0xFE)

/-- A number of steps, stopping at the first fault or refusal. -/
def runSteps : Nat → State → Result
  | 0, m => .next m
  | k + 1, m =>
    match step m with
    | .next t => runSteps k t
    | stopped => stopped

/-- The same instruction executed a number of times, without a fetch in between. -/
def executeTimes : Nat → Instr → State → Result
  | 0, _, m => .next m
  | k + 1, i, m =>
    match exec i m with
    | .next t => executeTimes k i t
    | stopped => stopped

/-- The one address an instruction stores at, if any, from the state before its transfers
(20_memory.md R54). -/
def storeAddress (i : Instr) (m : State) : Option Byte :=
  match i with
  | .staAdr adr | .stbAdr adr | .stxAdr adr | .stsAdr adr | .comAdr adr | .negAdr adr
  | .aslAdr adr | .rolAdr adr | .incAdr adr | .decAdr adr | .clrAdr adr => some adr
  | .jsrAdr _ | .bsrOffs _ | .pshsA | .pshsB | .pshsCC | .pshsX => some (m.s - 1)
  | .staX | .stbX | .staXInc | .stbXInc => some m.x
  | .staDecX | .stbDecX => some (m.x - 1)
  | .staNX n | .stbNX n => some (n + m.x)
  | .staAX | .stbAX => some (m.a + m.x)
  | .staBX | .stbBX => some (m.b + m.x)
  | .nop | .tfrAB | .tfrBA | .tfrACC | .tfrCCA | .tfrXS | .tfrSX | .exgAB | .exgACC | .exgBCC
  | .exgXS | .ldaAdr _ | .ldbAdr _ | .ldxAdr _ | .ldsAdr _ | .ldaImm _ | .ldbImm _ | .ldxImm _
  | .ldsImm _ | .andaAdr _ | .andbAdr _ | .andaImm _ | .andbImm _ | .oraAdr _ | .orbAdr _
  | .oraImm _ | .orbImm _ | .eoraAdr _ | .eorbAdr _ | .eoraImm _ | .eorbImm _ | .coma | .comb
  | .andccImm _ | .orccImm _ | .addaAdr _ | .addbAdr _ | .addaImm _ | .addbImm _ | .subaAdr _
  | .subbAdr _ | .subaImm _ | .subbImm _ | .nega | .negb | .asla | .aslb | .rola | .rolb
  | .inca | .incb | .deca | .decb | .clra | .clrb | .cmpaAdr _ | .cmpbAdr _ | .cmpxAdr _
  | .cmpsAdr _ | .cmpaImm _ | .cmpbImm _ | .cmpxImm _ | .cmpsImm _ | .tsta | .tstb | .tstAdr _
  | .bitaAdr _ | .bitbAdr _ | .bitaImm _ | .bitbImm _ | .jmpAdr _ | .braOffs _ | .bmiOffs _
  | .bplOffs _ | .beqOffs _ | .bneOffs _ | .bvsOffs _ | .bvcOffs _ | .bcsOffs _ | .bccOffs _
  | .bhiOffs _ | .blsOffs _ | .bgtOffs _ | .bgeOffs _ | .bleOffs _ | .bltOffs _ | .rts | .rti
  | .pulsA | .pulsB | .pulsCC | .pulsX | .leaxDecX | .leaxXInc | .leaxNX _ | .leaxAX | .leaxBX
  | .ldaX | .ldbX | .ldaXInc | .ldbXInc | .ldaDecX | .ldbDecX | .ldaNX _ | .ldbNX _ | .ldaAX
  | .ldbAX | .ldaBX | .ldbBX => none

/-- The byte an instruction stores there, if it stores one, from the state before its transfers
(20_memory.md R54; the image of CC with the unused bits as drawn, log 5). -/
def storedByte (i : Instr) (m : State) : Option Byte :=
  match i with
  | .staAdr _ | .pshsA | .staX | .staXInc | .staDecX | .staNX _ | .staAX | .staBX => some m.a
  | .stbAdr _ | .pshsB | .stbX | .stbXInc | .stbDecX | .stbNX _ | .stbAX | .stbBX => some m.b
  | .stxAdr _ | .pshsX => some m.x
  | .stsAdr _ => some m.s
  | .pshsCC => some (ccToByte m.cc (Config.ccUnusedRead m.draws))
  | .jsrAdr _ | .bsrOffs _ => some m.pc
  | .comAdr adr => some (~~~m.mem.read adr)
  | .negAdr adr => some (0 - m.mem.read adr)
  | .aslAdr adr => some (shiftedLeft (m.mem.read adr) false)
  | .rolAdr adr => some (shiftedLeft (m.mem.read adr) m.cc.c)
  | .incAdr adr => some (m.mem.read adr + 1)
  | .decAdr adr => some (m.mem.read adr - 1)
  | .clrAdr _ => some 0
  | .nop | .tfrAB | .tfrBA | .tfrACC | .tfrCCA | .tfrXS | .tfrSX | .exgAB | .exgACC | .exgBCC
  | .exgXS | .ldaAdr _ | .ldbAdr _ | .ldxAdr _ | .ldsAdr _ | .ldaImm _ | .ldbImm _ | .ldxImm _
  | .ldsImm _ | .andaAdr _ | .andbAdr _ | .andaImm _ | .andbImm _ | .oraAdr _ | .orbAdr _
  | .oraImm _ | .orbImm _ | .eoraAdr _ | .eorbAdr _ | .eoraImm _ | .eorbImm _ | .coma | .comb
  | .andccImm _ | .orccImm _ | .addaAdr _ | .addbAdr _ | .addaImm _ | .addbImm _ | .subaAdr _
  | .subbAdr _ | .subaImm _ | .subbImm _ | .nega | .negb | .asla | .aslb | .rola | .rolb
  | .inca | .incb | .deca | .decb | .clra | .clrb | .cmpaAdr _ | .cmpbAdr _ | .cmpxAdr _
  | .cmpsAdr _ | .cmpaImm _ | .cmpbImm _ | .cmpxImm _ | .cmpsImm _ | .tsta | .tstb | .tstAdr _
  | .bitaAdr _ | .bitbAdr _ | .bitaImm _ | .bitbImm _ | .jmpAdr _ | .braOffs _ | .bmiOffs _
  | .bplOffs _ | .beqOffs _ | .bneOffs _ | .bvsOffs _ | .bvcOffs _ | .bcsOffs _ | .bccOffs _
  | .bhiOffs _ | .blsOffs _ | .bgtOffs _ | .bgeOffs _ | .bleOffs _ | .bltOffs _ | .rts | .rti
  | .pulsA | .pulsB | .pulsCC | .pulsX | .leaxDecX | .leaxXInc | .leaxNX _ | .leaxAX | .leaxBX
  | .ldaX | .ldbX | .ldaXInc | .ldbXInc | .ldaDecX | .ldbDecX | .ldaNX _ | .ldbNX _ | .ldaAX
  | .ldbAX | .ldaBX | .ldbBX => none

/-- The last address an instruction reads, if any, from the state before its transfers (20_memory.md
R54). -/
def loadAddress (i : Instr) (m : State) : Option Byte :=
  match i with
  | .ldaAdr adr | .ldbAdr adr | .ldxAdr adr | .ldsAdr adr | .andaAdr adr | .andbAdr adr
  | .oraAdr adr | .orbAdr adr | .eoraAdr adr | .eorbAdr adr | .comAdr adr | .addaAdr adr
  | .addbAdr adr | .subaAdr adr | .subbAdr adr | .negAdr adr | .aslAdr adr | .rolAdr adr
  | .incAdr adr | .decAdr adr | .cmpaAdr adr | .cmpbAdr adr | .cmpxAdr adr | .cmpsAdr adr
  | .tstAdr adr | .bitaAdr adr | .bitbAdr adr => some adr
  | .rts | .pulsA | .pulsB | .pulsCC | .pulsX => some m.s
  | .rti => some (m.s + 4)
  | .ldaX | .ldbX | .ldaXInc | .ldbXInc => some m.x
  | .ldaDecX | .ldbDecX => some (m.x - 1)
  | .ldaNX n | .ldbNX n => some (n + m.x)
  | .ldaAX | .ldbAX => some (m.a + m.x)
  | .ldaBX | .ldbBX => some (m.b + m.x)
  | .nop | .tfrAB | .tfrBA | .tfrACC | .tfrCCA | .tfrXS | .tfrSX | .exgAB | .exgACC | .exgBCC
  | .exgXS | .ldaImm _ | .ldbImm _ | .ldxImm _ | .ldsImm _ | .staAdr _ | .stbAdr _ | .stxAdr _
  | .stsAdr _ | .andaImm _ | .andbImm _ | .oraImm _ | .orbImm _ | .eoraImm _ | .eorbImm _
  | .coma | .comb | .andccImm _ | .orccImm _ | .addaImm _ | .addbImm _ | .subaImm _
  | .subbImm _ | .nega | .negb | .asla | .aslb | .rola | .rolb | .inca | .incb | .deca | .decb
  | .clra | .clrb | .clrAdr _ | .cmpaImm _ | .cmpbImm _ | .cmpxImm _ | .cmpsImm _ | .tsta
  | .tstb | .bitaImm _ | .bitbImm _ | .jmpAdr _ | .braOffs _ | .bmiOffs _ | .bplOffs _
  | .beqOffs _ | .bneOffs _ | .bvsOffs _ | .bvcOffs _ | .bcsOffs _ | .bccOffs _ | .bhiOffs _
  | .blsOffs _ | .bgtOffs _ | .bgeOffs _ | .bleOffs _ | .bltOffs _ | .jsrAdr _ | .bsrOffs _
  | .pshsA | .pshsB | .pshsCC | .pshsX | .leaxDecX | .leaxXInc | .leaxNX _ | .leaxAX | .leaxBX
  | .staX | .stbX | .staXInc | .stbXInc | .staDecX | .stbDecX | .staNX _ | .stbNX _ | .staAX
  | .stbAX | .staBX | .stbBX => none

/-- The instructions that may write accumulator A (10_state.md R20, R41). -/
def writesA : Instr → Bool
  | .tfrBA | .tfrCCA | .exgAB | .exgACC | .ldaAdr _ | .ldaImm _ | .andaAdr _ | .andaImm _
  | .oraAdr _ | .oraImm _ | .eoraAdr _ | .eoraImm _ | .coma | .addaAdr _ | .addaImm _
  | .subaAdr _ | .subaImm _ | .nega | .asla | .rola | .inca | .deca | .clra | .rti | .pulsA
  | .ldaX | .ldaXInc | .ldaDecX | .ldaNX _ | .ldaAX | .ldaBX => true
  | .nop | .tfrAB | .tfrACC | .tfrXS | .tfrSX | .exgBCC | .exgXS | .ldbAdr _ | .ldxAdr _
  | .ldsAdr _ | .ldbImm _ | .ldxImm _ | .ldsImm _ | .staAdr _ | .stbAdr _ | .stxAdr _
  | .stsAdr _ | .andbAdr _ | .andbImm _ | .orbAdr _ | .orbImm _ | .eorbAdr _ | .eorbImm _
  | .comb | .comAdr _ | .andccImm _ | .orccImm _ | .addbAdr _ | .addbImm _ | .subbAdr _
  | .subbImm _ | .negb | .negAdr _ | .aslb | .aslAdr _ | .rolb | .rolAdr _ | .incb | .incAdr _
  | .decb | .decAdr _ | .clrb | .clrAdr _ | .cmpaAdr _ | .cmpbAdr _ | .cmpxAdr _ | .cmpsAdr _
  | .cmpaImm _ | .cmpbImm _ | .cmpxImm _ | .cmpsImm _ | .tsta | .tstb | .tstAdr _ | .bitaAdr _
  | .bitbAdr _ | .bitaImm _ | .bitbImm _ | .jmpAdr _ | .braOffs _ | .bmiOffs _ | .bplOffs _
  | .beqOffs _ | .bneOffs _ | .bvsOffs _ | .bvcOffs _ | .bcsOffs _ | .bccOffs _ | .bhiOffs _
  | .blsOffs _ | .bgtOffs _ | .bgeOffs _ | .bleOffs _ | .bltOffs _ | .jsrAdr _ | .rts
  | .bsrOffs _ | .pshsA | .pshsB | .pshsCC | .pshsX | .pulsB | .pulsCC | .pulsX | .leaxDecX
  | .leaxXInc | .leaxNX _ | .leaxAX | .leaxBX | .ldbX | .ldbXInc | .ldbDecX | .ldbNX _ | .ldbAX
  | .ldbBX | .staX | .stbX | .staXInc | .stbXInc | .staDecX | .stbDecX | .staNX _ | .stbNX _
  | .staAX | .stbAX | .staBX | .stbBX => false

/-- The instructions that may write accumulator B (10_state.md R20, R41). -/
def writesB : Instr → Bool
  | .tfrAB | .exgAB | .exgBCC | .ldbAdr _ | .ldbImm _ | .andbAdr _ | .andbImm _ | .orbAdr _
  | .orbImm _ | .eorbAdr _ | .eorbImm _ | .comb | .addbAdr _ | .addbImm _ | .subbAdr _
  | .subbImm _ | .negb | .aslb | .rolb | .incb | .decb | .clrb | .rti | .pulsB | .ldbX
  | .ldbXInc | .ldbDecX | .ldbNX _ | .ldbAX | .ldbBX => true
  | .nop | .tfrBA | .tfrACC | .tfrCCA | .tfrXS | .tfrSX | .exgACC | .exgXS | .ldaAdr _
  | .ldxAdr _ | .ldsAdr _ | .ldaImm _ | .ldxImm _ | .ldsImm _ | .staAdr _ | .stbAdr _
  | .stxAdr _ | .stsAdr _ | .andaAdr _ | .andaImm _ | .oraAdr _ | .oraImm _ | .eoraAdr _
  | .eoraImm _ | .coma | .comAdr _ | .andccImm _ | .orccImm _ | .addaAdr _ | .addaImm _
  | .subaAdr _ | .subaImm _ | .nega | .negAdr _ | .asla | .aslAdr _ | .rola | .rolAdr _ | .inca
  | .incAdr _ | .deca | .decAdr _ | .clra | .clrAdr _ | .cmpaAdr _ | .cmpbAdr _ | .cmpxAdr _
  | .cmpsAdr _ | .cmpaImm _ | .cmpbImm _ | .cmpxImm _ | .cmpsImm _ | .tsta | .tstb | .tstAdr _
  | .bitaAdr _ | .bitbAdr _ | .bitaImm _ | .bitbImm _ | .jmpAdr _ | .braOffs _ | .bmiOffs _
  | .bplOffs _ | .beqOffs _ | .bneOffs _ | .bvsOffs _ | .bvcOffs _ | .bcsOffs _ | .bccOffs _
  | .bhiOffs _ | .blsOffs _ | .bgtOffs _ | .bgeOffs _ | .bleOffs _ | .bltOffs _ | .jsrAdr _
  | .rts | .bsrOffs _ | .pshsA | .pshsB | .pshsCC | .pshsX | .pulsA | .pulsCC | .pulsX
  | .leaxDecX | .leaxXInc | .leaxNX _ | .leaxAX | .leaxBX | .ldaX | .ldaXInc | .ldaDecX
  | .ldaNX _ | .ldaAX | .ldaBX | .staX | .stbX | .staXInc | .stbXInc | .staDecX | .stbDecX
  | .staNX _ | .stbNX _ | .staAX | .stbAX | .staBX | .stbBX => false

/-- The instructions that may write index register X (10_state.md R21, R41). -/
def writesX : Instr → Bool
  | .tfrSX | .exgXS | .ldxAdr _ | .ldxImm _ | .rti | .pulsX | .leaxDecX | .leaxXInc | .leaxNX _
  | .leaxAX | .leaxBX | .ldaXInc | .ldbXInc | .ldaDecX | .ldbDecX | .staXInc | .stbXInc
  | .staDecX | .stbDecX => true
  | .nop | .tfrAB | .tfrBA | .tfrACC | .tfrCCA | .tfrXS | .exgAB | .exgACC | .exgBCC
  | .ldaAdr _ | .ldbAdr _ | .ldsAdr _ | .ldaImm _ | .ldbImm _ | .ldsImm _ | .staAdr _
  | .stbAdr _ | .stxAdr _ | .stsAdr _ | .andaAdr _ | .andbAdr _ | .andaImm _ | .andbImm _
  | .oraAdr _ | .orbAdr _ | .oraImm _ | .orbImm _ | .eoraAdr _ | .eorbAdr _ | .eoraImm _
  | .eorbImm _ | .coma | .comb | .comAdr _ | .andccImm _ | .orccImm _ | .addaAdr _ | .addbAdr _
  | .addaImm _ | .addbImm _ | .subaAdr _ | .subbAdr _ | .subaImm _ | .subbImm _ | .nega | .negb
  | .negAdr _ | .asla | .aslb | .aslAdr _ | .rola | .rolb | .rolAdr _ | .inca | .incb
  | .incAdr _ | .deca | .decb | .decAdr _ | .clra | .clrb | .clrAdr _ | .cmpaAdr _ | .cmpbAdr _
  | .cmpxAdr _ | .cmpsAdr _ | .cmpaImm _ | .cmpbImm _ | .cmpxImm _ | .cmpsImm _ | .tsta | .tstb
  | .tstAdr _ | .bitaAdr _ | .bitbAdr _ | .bitaImm _ | .bitbImm _ | .jmpAdr _ | .braOffs _
  | .bmiOffs _ | .bplOffs _ | .beqOffs _ | .bneOffs _ | .bvsOffs _ | .bvcOffs _ | .bcsOffs _
  | .bccOffs _ | .bhiOffs _ | .blsOffs _ | .bgtOffs _ | .bgeOffs _ | .bleOffs _ | .bltOffs _
  | .jsrAdr _ | .rts | .bsrOffs _ | .pshsA | .pshsB | .pshsCC | .pshsX | .pulsA | .pulsB
  | .pulsCC | .ldaX | .ldbX | .ldaNX _ | .ldbNX _ | .ldaAX | .ldbAX | .ldaBX | .ldbBX | .staX
  | .stbX | .staNX _ | .stbNX _ | .staAX | .stbAX | .staBX | .stbBX => false

/-- The instructions that may write stack register S (10_state.md R22, R41). -/
def writesS : Instr → Bool
  | .tfrXS | .exgXS | .ldsAdr _ | .ldsImm _ | .jsrAdr _ | .rts | .bsrOffs _ | .rti | .pshsA
  | .pshsB | .pshsCC | .pshsX | .pulsA | .pulsB | .pulsCC | .pulsX => true
  | .nop | .tfrAB | .tfrBA | .tfrACC | .tfrCCA | .tfrSX | .exgAB | .exgACC | .exgBCC
  | .ldaAdr _ | .ldbAdr _ | .ldxAdr _ | .ldaImm _ | .ldbImm _ | .ldxImm _ | .staAdr _
  | .stbAdr _ | .stxAdr _ | .stsAdr _ | .andaAdr _ | .andbAdr _ | .andaImm _ | .andbImm _
  | .oraAdr _ | .orbAdr _ | .oraImm _ | .orbImm _ | .eoraAdr _ | .eorbAdr _ | .eoraImm _
  | .eorbImm _ | .coma | .comb | .comAdr _ | .andccImm _ | .orccImm _ | .addaAdr _ | .addbAdr _
  | .addaImm _ | .addbImm _ | .subaAdr _ | .subbAdr _ | .subaImm _ | .subbImm _ | .nega | .negb
  | .negAdr _ | .asla | .aslb | .aslAdr _ | .rola | .rolb | .rolAdr _ | .inca | .incb
  | .incAdr _ | .deca | .decb | .decAdr _ | .clra | .clrb | .clrAdr _ | .cmpaAdr _ | .cmpbAdr _
  | .cmpxAdr _ | .cmpsAdr _ | .cmpaImm _ | .cmpbImm _ | .cmpxImm _ | .cmpsImm _ | .tsta | .tstb
  | .tstAdr _ | .bitaAdr _ | .bitbAdr _ | .bitaImm _ | .bitbImm _ | .jmpAdr _ | .braOffs _
  | .bmiOffs _ | .bplOffs _ | .beqOffs _ | .bneOffs _ | .bvsOffs _ | .bvcOffs _ | .bcsOffs _
  | .bccOffs _ | .bhiOffs _ | .blsOffs _ | .bgtOffs _ | .bgeOffs _ | .bleOffs _ | .bltOffs _
  | .leaxDecX | .leaxXInc | .leaxNX _ | .leaxAX | .leaxBX | .ldaX | .ldbX | .ldaXInc | .ldbXInc
  | .ldaDecX | .ldbDecX | .ldaNX _ | .ldbNX _ | .ldaAX | .ldbAX | .ldaBX | .ldbBX | .staX
  | .stbX | .staXInc | .stbXInc | .staDecX | .stbDecX | .staNX _ | .stbNX _ | .staAX | .stbAX
  | .staBX | .stbBX => false

/-- The instructions that may write PC as a destination (10_state.md R23, R41). -/
def writesPc : Instr → Bool
  | .jmpAdr _ | .braOffs _ | .bmiOffs _ | .bplOffs _ | .beqOffs _ | .bneOffs _ | .bvsOffs _
  | .bvcOffs _ | .bcsOffs _ | .bccOffs _ | .bhiOffs _ | .blsOffs _ | .bgtOffs _ | .bgeOffs _
  | .bleOffs _ | .bltOffs _ | .jsrAdr _ | .rts | .bsrOffs _ | .rti => true
  | .nop | .tfrAB | .tfrBA | .tfrACC | .tfrCCA | .tfrXS | .tfrSX | .exgAB | .exgACC | .exgBCC
  | .exgXS | .ldaAdr _ | .ldbAdr _ | .ldxAdr _ | .ldsAdr _ | .ldaImm _ | .ldbImm _ | .ldxImm _
  | .ldsImm _ | .staAdr _ | .stbAdr _ | .stxAdr _ | .stsAdr _ | .andaAdr _ | .andbAdr _
  | .andaImm _ | .andbImm _ | .oraAdr _ | .orbAdr _ | .oraImm _ | .orbImm _ | .eoraAdr _
  | .eorbAdr _ | .eoraImm _ | .eorbImm _ | .coma | .comb | .comAdr _ | .andccImm _ | .orccImm _
  | .addaAdr _ | .addbAdr _ | .addaImm _ | .addbImm _ | .subaAdr _ | .subbAdr _ | .subaImm _
  | .subbImm _ | .nega | .negb | .negAdr _ | .asla | .aslb | .aslAdr _ | .rola | .rolb
  | .rolAdr _ | .inca | .incb | .incAdr _ | .deca | .decb | .decAdr _ | .clra | .clrb
  | .clrAdr _ | .cmpaAdr _ | .cmpbAdr _ | .cmpxAdr _ | .cmpsAdr _ | .cmpaImm _ | .cmpbImm _
  | .cmpxImm _ | .cmpsImm _ | .tsta | .tstb | .tstAdr _ | .bitaAdr _ | .bitbAdr _ | .bitaImm _
  | .bitbImm _ | .pshsA | .pshsB | .pshsCC | .pshsX | .pulsA | .pulsB | .pulsCC | .pulsX
  | .leaxDecX | .leaxXInc | .leaxNX _ | .leaxAX | .leaxBX | .ldaX | .ldbX | .ldaXInc | .ldbXInc
  | .ldaDecX | .ldbDecX | .ldaNX _ | .ldbNX _ | .ldaAX | .ldbAX | .ldaBX | .ldbBX | .staX
  | .stbX | .staXInc | .stbXInc | .staDecX | .stbDecX | .staNX _ | .stbNX _ | .staAX | .stbAX
  | .staBX | .stbBX => false

/-- The instructions that may write a flag (10_state.md R24 to R30, R41). -/
def writesFlags : Instr → Bool
  | .tfrACC | .exgACC | .exgBCC | .andaAdr _ | .andbAdr _ | .andaImm _ | .andbImm _ | .oraAdr _
  | .orbAdr _ | .oraImm _ | .orbImm _ | .eoraAdr _ | .eorbAdr _ | .eoraImm _ | .eorbImm _
  | .coma | .comb | .comAdr _ | .andccImm _ | .orccImm _ | .addaAdr _ | .addbAdr _ | .addaImm _
  | .addbImm _ | .subaAdr _ | .subbAdr _ | .subaImm _ | .subbImm _ | .nega | .negb | .negAdr _
  | .asla | .aslb | .aslAdr _ | .rola | .rolb | .rolAdr _ | .inca | .incb | .incAdr _ | .deca
  | .decb | .decAdr _ | .clra | .clrb | .clrAdr _ | .cmpaAdr _ | .cmpbAdr _ | .cmpxAdr _
  | .cmpsAdr _ | .cmpaImm _ | .cmpbImm _ | .cmpxImm _ | .cmpsImm _ | .tsta | .tstb | .tstAdr _
  | .bitaAdr _ | .bitbAdr _ | .bitaImm _ | .bitbImm _ | .rti | .pulsCC => true
  | .nop | .tfrAB | .tfrBA | .tfrCCA | .tfrXS | .tfrSX | .exgAB | .exgXS | .ldaAdr _
  | .ldbAdr _ | .ldxAdr _ | .ldsAdr _ | .ldaImm _ | .ldbImm _ | .ldxImm _ | .ldsImm _
  | .staAdr _ | .stbAdr _ | .stxAdr _ | .stsAdr _ | .jmpAdr _ | .braOffs _ | .bmiOffs _
  | .bplOffs _ | .beqOffs _ | .bneOffs _ | .bvsOffs _ | .bvcOffs _ | .bcsOffs _ | .bccOffs _
  | .bhiOffs _ | .blsOffs _ | .bgtOffs _ | .bgeOffs _ | .bleOffs _ | .bltOffs _ | .jsrAdr _
  | .rts | .bsrOffs _ | .pshsA | .pshsB | .pshsCC | .pshsX | .pulsA | .pulsB | .pulsX
  | .leaxDecX | .leaxXInc | .leaxNX _ | .leaxAX | .leaxBX | .ldaX | .ldbX | .ldaXInc | .ldbXInc
  | .ldaDecX | .ldbDecX | .ldaNX _ | .ldbNX _ | .ldaAX | .ldbAX | .ldaBX | .ldbBX | .staX
  | .stbX | .staXInc | .stbXInc | .staDecX | .stbDecX | .staNX _ | .stbNX _ | .staAX | .stbAX
  | .staBX | .stbBX => false

end Sys2Proof.Machine
end

