-- ==== Sys2Proof/Certificates/Slice0/Obligations.lean ====
section
/-!
DEFINITION. The statements about the machine. An instruction is executed on the state after its fetch:
`m.pc` is the address of the next instruction (30_encoding.md R84). A statement about a free value
holds for every value of it.
-/

open Sys2Proof Sys2Proof.Machine

/-- Decoding the bytes of an instruction, followed by any bytes, gives the instruction and the
bytes that follow (30_encoding.md section 1 (formats F1, F2); 30_encoding.md section 3 (the opcode
map); 30_encoding.md R87). -/
def Obligations.EncodeThenDecode : Prop :=
  ∀ (i : Instr) (rest : List Byte), i.wf = true ∧ decode (encode i ++ rest) = .ok (i, rest)

/-- Bytes that decode are the encoding of what they decode to, and what is left over
(30_encoding.md section 3 (the opcode map); 30_encoding.md R87; 30_encoding.md R94). -/
def Obligations.DecodeThenEncode : Prop :=
  ∀ (bytes rest : List Byte) (i : Instr), decode bytes = .ok (i, rest) → bytes = encode i ++ rest

/-- The decoder accepts as one whole instruction exactly an assigned opcode with the number of
bytes the list of two-byte opcodes gives it (30_encoding.md section 3 (assigned, illegal and
two-byte opcodes)). -/
def Obligations.DecodeAcceptsExactlyTheAssignedCode : Prop :=
  ∀ bytes : List Byte, (∃ i, decode bytes = .ok (i, [])) ↔ codeWf bytes = true

/-- A few words written out from the opcode map decode to their instructions (30_encoding.md
section 3 (the opcode map)). -/
def Obligations.KnownWordsDecode : Prop :=
  decode [0x00] = .ok (.nop, []) ∧ decode [0x0B, 0x40] = .ok (.ldaAdr 0x40, []) ∧
  decode [0x0F, 0x70] = .ok (.ldaImm 0x70, []) ∧ decode [0x19, 0xF0] = .ok (.andaImm 0xF0, []) ∧
  decode [0x2A, 0x70] = .ok (.addaImm 0x70, []) ∧ decode [0x35, 0x40] = .ok (.aslAdr 0x40, []) ∧
  decode [0x46, 0x70] = .ok (.cmpaImm 0x70, []) ∧ decode [0x51, 0x80] = .ok (.jmpAdr 0x80, []) ∧
  decode [0x52, 0xFE] = .ok (.braOffs 0xFE, []) ∧ decode [0x65] = .ok (.pshsA, []) ∧
  decode [0x6F, 0x05] = .ok (.leaxNX 0x05, []) ∧ decode [0x78, 0x0F] = .ok (.ldaNX 0x0F, []) ∧
  decode [0x89] = .ok (.stbBX, []) ∧ decode [0x8A, 0x00] = .error (.illegalOpcode 0x8A)

/-- When the bytes at PC decode to an instruction and no event comes first, a step is it, run on
the state after its fetch (MA: log 16; boundary passed: log 13) (30_encoding.md section 2 (fetch
and decode); 92_eei_decisions.md D3, D21; 10_state.md section 4 (MA)). -/
def Obligations.StepRunsTheDecodedInstruction : Prop :=
  ∀ (m : State) (i : Instr) (rest : List Byte), m.runsNext = true →
    decode [m.mem.read m.pc, m.mem.read (m.pc + 1)] = .ok (i, rest) →
    i.wf = true ∧ step m = exec i (m.fetched i)

/-- A step answers a next state, except exactly at an unassigned opcode, where it faults with that
opcode (30_encoding.md section 3 (illegal opcodes); 60_exceptions.md section 1;
92_eei_decisions.md D9). -/
def Obligations.OnlyAnUnassignedOpcodeStops : Prop :=
  ∀ m : State,
    if m.runsNext = true ∧ 0x8A ≤ (m.mem.read m.pc).toNat then
      step m = .fault (.illegalOpcode (m.mem.read m.pc))
    else ∃ t, step m = .next t

/-- Every instruction completes in every state: there is no synchronous exception
(60_exceptions.md section 1 (no synchronous exception); 60_exceptions.md section 5 (one mode)). -/
def Obligations.EveryInstructionCompletes : Prop :=
  ∀ (i : Instr) (m : State), ∃ t, exec i m = .next t

/-- Every step keeps memory in its canonical form (20_memory.md section 1 (256 locations, each
holding one byte)). -/
def Obligations.StepKeepsMemoryCanonical : Prop :=
  ∀ m t : State, m.mem.wf = true → step m = .next t → t.mem.wf = true

/-- Memory has its canonical form after reset (20_memory.md section 1 (256 locations, each holding
one byte); 10_state.md section 5). -/
def Obligations.ResetMemoryIsCanonical : Prop :=
  State.reset.mem.wf = true

/-- The content of MA between instructions has no effect on anything but MA (10_state.md section 4
(MA)). -/
def Obligations.MaIsNotObservable : Prop :=
  ∀ (m : State) (v : Byte),
    match step m with
    | .next t => ∃ w, step { m with ma := v } = .next { t with ma := w }
    | .fault f => step { m with ma := v } = .fault f
    | .refused r => step { m with ma := v } = .refused r

/-- MA holds the address of the latest access (that it keeps it after the access is deduced, log
16) (10_state.md section 4 (MA); 20_memory.md section 2 (accesses of each instruction)). -/
def Obligations.MaHoldsTheLastAccess : Prop :=
  ∀ (i : Instr) (m t : State), exec i m = .next t →
    t.ma = ((storeAddress i m).orElse fun _ => loadAddress i m).getD m.ma

/-- An instruction changes memory at most at the one address the access table gives it
(20_memory.md section 2 (accesses of each instruction); 92_eei_decisions.md D22). -/
def Obligations.StoresOnlyWhereTheAccessTableSays : Prop :=
  ∀ (i : Instr) (m t : State), exec i m = .next t →
    t.inputs = m.inputs ∧ t.image = m.image ∧
    ∀ adr, storeAddress i m ≠ some adr → t.mem.read adr = m.mem.read adr

/-- An instruction writes no register and no flag that the access matrix does not let it write
(10_state.md section 6 (access matrix); 10_state.md sections 1 to 3 (writers of each register)).
-/
def Obligations.WritesOnlyWhatTheAccessMatrixSays : Prop :=
  ∀ (i : Instr) (m t : State), exec i m = .next t →
    (writesA i = false → t.a = m.a) ∧ (writesB i = false → t.b = m.b) ∧
    (writesX i = false → t.x = m.x) ∧ (writesS i = false → t.s = m.s) ∧
    (writesPc i = false → t.pc = m.pc) ∧ (writesFlags i = false → t.cc = m.cc)

/-- The instructions that leave all flags alone (R30). -/
def Obligations.FlagsLeftAlone : Prop :=
  ∀ (i : Instr) (m : State) (op : Nat), (encode i).head? = some (BitVec.ofNat 8 op) →
    (op = 0x00 ∨ (0x01 ≤ op ∧ op ≤ 0x16 ∧ op ≠ 0x03 ∧ op ≠ 0x08 ∧ op ≠ 0x09) ∨
      (0x51 ≤ op ∧ op ≤ 0x63) ∨ (0x65 ≤ op ∧ op ≤ 0x6C ∧ op ≠ 0x6B) ∨ (0x6D ≤ op ∧ op ≤ 0x89)) →
    ∃ t, exec i m = .next t ∧ t.cc = m.cc

/-- The sum of two bytes and a carry: result, half carry, overflow and carry (R11). -/
def Obligations.AdditionAndItsFlags : Prop :=
  ∀ (p q : Byte) (cin : Bool),
    (add8 p q cin).r.toNat = (p.toNat + q.toNat + cin.toNat) % 256 ∧
    ((add8 p q cin).c = true ↔ 255 < p.toNat + q.toNat + cin.toNat) ∧
    ((add8 p q cin).h = true ↔ 15 < p.toNat % 16 + q.toNat % 16 + cin.toNat) ∧
    ((add8 p q cin).v = true ↔
      p.toInt + q.toInt + cin.toNat < -128 ∨ 127 < p.toInt + q.toInt + cin.toNat) ∧
    ((add8 p q false).v = true ↔
      p.getLsbD 7 = q.getLsbD 7 ∧ (add8 p q false).r.getLsbD 7 ≠ p.getLsbD 7) ∧
    (flagN (add8 p q cin).r = (add8 p q cin).r.getLsbD 7) ∧
    (flagZ (add8 p q cin).r = true ↔ (add8 p q cin).r = 0)

/-- The difference of two bytes: result, overflow, and the borrow as carry (the spec's choice, log
7) (00_scope.md section 6 (sub8); 92_eei_decisions.md D6). -/
def Obligations.SubtractionAndItsFlags : Prop :=
  ∀ p q : Byte,
    ((sub8 p q).r.toNat : Int) = ((p.toNat : Int) - q.toNat) % 256 ∧
    ((sub8 p q).v = true ↔ p.toInt - q.toInt < -128 ∨ 127 < p.toInt - q.toInt) ∧
    ((sub8 p q).v = true ↔ p.getLsbD 7 ≠ q.getLsbD 7 ∧ (sub8 p q).r.getLsbD 7 ≠ p.getLsbD 7) ∧
    ((sub8 p q).c = true ↔ p.toNat < q.toNat)

/-- The left shift of a byte: result, overflow, carry (the functions are the spec's choice, log 8)
(00_scope.md section 6 (shl8); 92_eei_decisions.md D7). -/
def Obligations.LeftShiftAndItsFlags : Prop :=
  ∀ (p : Byte) (cin : Bool),
    (shl8 p cin).r.toNat = (2 * p.toNat + cin.toNat) % 256 ∧
    (shl8 p cin).c = p.getLsbD 7 ∧
    ((shl8 p cin).v = true ↔ 2 * p.toInt + cin.toNat < -128 ∨ 127 < 2 * p.toInt + cin.toNat) ∧
    (shl8 p cin).v = ((shl8 p cin).r.getLsbD 7 ^^ (shl8 p cin).c)

/-- The byte image of CC and back (layout: the spec's choice, log 6; unused bits: log 5)
(00_scope.md section 6 (cc_to_byte, byte_to_cc); 92_eei_decisions.md D1, D2). -/
def Obligations.CcImageRoundTrip : Prop :=
  ∀ (f : CC) (u v : Byte),
    byteToCC (ccToByte f u) = f ∧
    ccToByte f u = (u &&& 0xE0) + (if f.h then 16 else 0) + (if f.n then 8 else 0) +
      (if f.z then 4 else 0) + (if f.v then 2 else 0) + (if f.c then 1 else 0) ∧
    byteToCC v = ⟨v.getLsbD 4, v.getLsbD 3, v.getLsbD 2, v.getLsbD 1, v.getLsbD 0⟩

/-- NOP changes no state other than PC (R110). -/
def Obligations.NopChangesNothing : Prop :=
  ∀ m : State,
    RowIs .nop [0x00] 3 ∧ exec .nop m = .next m

/-- TFR and EXG between registers (R121; R122; R125; R126; R127; R130). -/
def Obligations.RegisterTransfersAndExchanges : Prop :=
  ∀ m : State,
    (RowIs .tfrAB [0x01] 3 ∧ RunsTo .tfrAB m { m.regs with b := m.a }) ∧
    (RowIs .tfrBA [0x02] 3 ∧ RunsTo .tfrBA m { m.regs with a := m.b }) ∧
    (RowIs .tfrXS [0x05] 3 ∧ RunsTo .tfrXS m { m.regs with s := m.x }) ∧
    (RowIs .tfrSX [0x06] 3 ∧ RunsTo .tfrSX m { m.regs with x := m.s }) ∧
    (RowIs .exgAB [0x07] 5 ∧ RunsTo .exgAB m { m.regs with a := m.b, b := m.a }) ∧
    (RowIs .exgXS [0x0A] 5 ∧ RunsTo .exgXS m { m.regs with x := m.s, s := m.x })

/-- TFR and EXG with CC go through the byte image of CC (layout and unused bits: the spec's
choice, log 5 and log 6) (41_data_transfer.md section on TFR and EXG with CC; 92_eei_decisions.md
D1, D2). -/
def Obligations.CcTransfersAndExchanges : Prop :=
  ∀ m : State,
    (RowIs .tfrACC [0x03] 3 ∧ RunsTo .tfrACC m { m.regs with cc := byteToCC m.a }) ∧
    (RowIs .tfrCCA [0x04] 3 ∧ ∃ u, RunsTo .tfrCCA m { m.regs with a := ccToByte m.cc u }) ∧
    (RowIs .exgACC [0x08] 5 ∧
      ∃ u, RunsTo .exgACC m { m.regs with a := ccToByte m.cc u, cc := byteToCC m.a }) ∧
    (RowIs .exgBCC [0x09] 5 ∧
      ∃ u, RunsTo .exgBCC m { m.regs with b := ccToByte m.cc u, cc := byteToCC m.b })

/-- LDA, LDB, LDX, LDS from an absolute address and immediate (R131; R132; R133; R134; R135; R136;
R137; R138). -/
def Obligations.LoadsAbsoluteAndImmediate : Prop :=
  ∀ (m : State) (v : Byte),
    (RowIs (.ldaAdr v) [0x0B, v] 5 ∧ RunsTo (.ldaAdr v) m { m.regs with a := m.mem.read v }) ∧
    (RowIs (.ldbAdr v) [0x0C, v] 5 ∧ RunsTo (.ldbAdr v) m { m.regs with b := m.mem.read v }) ∧
    (RowIs (.ldxAdr v) [0x0D, v] 5 ∧ RunsTo (.ldxAdr v) m { m.regs with x := m.mem.read v }) ∧
    (RowIs (.ldsAdr v) [0x0E, v] 5 ∧ RunsTo (.ldsAdr v) m { m.regs with s := m.mem.read v }) ∧
    (RowIs (.ldaImm v) [0x0F, v] 4 ∧ RunsTo (.ldaImm v) m { m.regs with a := v }) ∧
    (RowIs (.ldbImm v) [0x10, v] 4 ∧ RunsTo (.ldbImm v) m { m.regs with b := v }) ∧
    (RowIs (.ldxImm v) [0x11, v] 4 ∧ RunsTo (.ldxImm v) m { m.regs with x := v }) ∧
    (RowIs (.ldsImm v) [0x12, v] 4 ∧ RunsTo (.ldsImm v) m { m.regs with s := v })

/-- STA, STB, STX, STS at an absolute address (R139; R140; R141; R142). -/
def Obligations.StoresAbsolute : Prop :=
  ∀ (m : State) (v : Byte),
    (RowIs (.staAdr v) [0x13, v] 5 ∧ StoresTo (.staAdr v) m m.regs v m.a) ∧
    (RowIs (.stbAdr v) [0x14, v] 5 ∧ StoresTo (.stbAdr v) m m.regs v m.b) ∧
    (RowIs (.stxAdr v) [0x15, v] 5 ∧ StoresTo (.stxAdr v) m m.regs v m.x) ∧
    (RowIs (.stsAdr v) [0x16, v] 5 ∧ StoresTo (.stsAdr v) m m.regs v m.s)

/-- AND, OR and EOR of an accumulator with a memory byte or an immediate byte (H is any value, log
4) (42_logic.md (AND, OR and EOR rows); 92_eei_decisions.md D8). -/
def Obligations.LogicOnAccumulators : Prop :=
  ∀ (m : State) (v : Byte),
    (RowIs (.andaAdr v) [0x17, v] 7 ∧
      ∃ h, RunsTo (.andaAdr v) m
        { m.regs with a := m.a &&& m.mem.read v, cc := logicFlags h (m.a &&& m.mem.read v) }) ∧
    (RowIs (.andaImm v) [0x19, v] 6 ∧
      ∃ h, RunsTo (.andaImm v) m { m.regs with a := m.a &&& v, cc := logicFlags h (m.a &&& v) }) ∧
    (RowIs (.andbAdr v) [0x18, v] 7 ∧
      ∃ h, RunsTo (.andbAdr v) m
        { m.regs with b := m.b &&& m.mem.read v, cc := logicFlags h (m.b &&& m.mem.read v) }) ∧
    (RowIs (.andbImm v) [0x1A, v] 6 ∧
      ∃ h, RunsTo (.andbImm v) m { m.regs with b := m.b &&& v, cc := logicFlags h (m.b &&& v) }) ∧
    (RowIs (.oraAdr v) [0x1B, v] 7 ∧
      ∃ h, RunsTo (.oraAdr v) m
        { m.regs with a := m.a ||| m.mem.read v, cc := logicFlags h (m.a ||| m.mem.read v) }) ∧
    (RowIs (.oraImm v) [0x1D, v] 6 ∧
      ∃ h, RunsTo (.oraImm v) m { m.regs with a := m.a ||| v, cc := logicFlags h (m.a ||| v) }) ∧
    (RowIs (.orbAdr v) [0x1C, v] 7 ∧
      ∃ h, RunsTo (.orbAdr v) m
        { m.regs with b := m.b ||| m.mem.read v, cc := logicFlags h (m.b ||| m.mem.read v) }) ∧
    (RowIs (.orbImm v) [0x1E, v] 6 ∧
      ∃ h, RunsTo (.orbImm v) m { m.regs with b := m.b ||| v, cc := logicFlags h (m.b ||| v) }) ∧
    (RowIs (.eoraAdr v) [0x1F, v] 6 ∧
      ∃ h, RunsTo (.eoraAdr v) m
        { m.regs with a := m.a ^^^ m.mem.read v, cc := logicFlags h (m.a ^^^ m.mem.read v) }) ∧
    (RowIs (.eoraImm v) [0x21, v] 6 ∧
      ∃ h, RunsTo (.eoraImm v) m { m.regs with a := m.a ^^^ v, cc := logicFlags h (m.a ^^^ v) }) ∧
    (RowIs (.eorbAdr v) [0x20, v] 6 ∧
      ∃ h, RunsTo (.eorbAdr v) m
        { m.regs with b := m.b ^^^ m.mem.read v, cc := logicFlags h (m.b ^^^ m.mem.read v) }) ∧
    (RowIs (.eorbImm v) [0x22, v] 6 ∧
      ∃ h, RunsTo (.eorbImm v) m { m.regs with b := m.b ^^^ v, cc := logicFlags h (m.b ^^^ v) })

/-- COM of A, B and a memory byte (H and C are any values, log 4) (42_logic.md (COM rows);
90_conflicts.md C5; 92_eei_decisions.md D8). -/
def Obligations.ComplementInPlace : Prop :=
  ∀ (m : State) (v : Byte),
    (RowIs .coma [0x23] 4 ∧
      ∃ h c, RunsTo .coma m
        { m.regs with a := ~~~m.a, cc := ⟨h, (~~~m.a).msb, decide (~~~m.a = 0), false, c⟩ }) ∧
    (RowIs .comb [0x24] 4 ∧
      ∃ h c, RunsTo .comb m
        { m.regs with b := ~~~m.b, cc := ⟨h, (~~~m.b).msb, decide (~~~m.b = 0), false, c⟩ }) ∧
    (RowIs (.comAdr v) [0x25, v] 6 ∧
      ∃ h c, StoresTo (.comAdr v) m
        { m.regs with
          cc := ⟨h, (~~~m.mem.read v).msb, decide (~~~m.mem.read v = 0), false, c⟩ }
        v (~~~m.mem.read v))

/-- ANDCC and ORCC clear and set flags by the bits of their operand (layout: the spec's choice,
log 6) (42_logic.md (ANDCC and ORCC rows); 92_eei_decisions.md D1, D2). -/
def Obligations.AndccAndOrccMaskTheFlags : Prop :=
  ∀ (m : State) (v : Byte),
    (RowIs (.andccImm v) [0x26, v] 6 ∧
      RunsTo (.andccImm v) m
        { m.regs with
          cc := ⟨m.cc.h && v.getLsbD 4, m.cc.n && v.getLsbD 3, m.cc.z && v.getLsbD 2,
            m.cc.v && v.getLsbD 1, m.cc.c && v.getLsbD 0⟩ }) ∧
    (RowIs (.orccImm v) [0x27, v] 6 ∧
      RunsTo (.orccImm v) m
        { m.regs with
          cc := ⟨m.cc.h || v.getLsbD 4, m.cc.n || v.getLsbD 3, m.cc.z || v.getLsbD 2,
            m.cc.v || v.getLsbD 1, m.cc.c || v.getLsbD 0⟩ })

/-- ADDA and ADDB from memory and immediate (R181; R182; R183; R184). -/
def Obligations.AddToAccumulator : Prop :=
  ∀ (m : State) (v : Byte),
    (RowIs (.addaAdr v) [0x28, v] 7 ∧
      RunsTo (.addaAdr v) m
        { m.regs with a := m.a + m.mem.read v, cc := addFlags m.a (m.mem.read v) }) ∧
    (RowIs (.addaImm v) [0x2A, v] 6 ∧
      RunsTo (.addaImm v) m { m.regs with a := m.a + v, cc := addFlags m.a v }) ∧
    (RowIs (.addbAdr v) [0x29, v] 7 ∧
      RunsTo (.addbAdr v) m
        { m.regs with b := m.b + m.mem.read v, cc := addFlags m.b (m.mem.read v) }) ∧
    (RowIs (.addbImm v) [0x2B, v] 6 ∧
      RunsTo (.addbImm v) m { m.regs with b := m.b + v, cc := addFlags m.b v })

/-- SUBA and SUBB from memory and immediate (the carry is the borrow, log 7; H is any value, log
4) (43_arithmetic.md (SUB rows); 92_eei_decisions.md D6, D8). -/
def Obligations.SubtractFromAccumulator : Prop :=
  ∀ (m : State) (v : Byte),
    (RowIs (.subaAdr v) [0x2C, v] 7 ∧
      ∃ h, RunsTo (.subaAdr v) m
        { m.regs with a := m.a - m.mem.read v, cc := subFlags h m.a (m.mem.read v) }) ∧
    (RowIs (.subaImm v) [0x2E, v] 6 ∧
      ∃ h, RunsTo (.subaImm v) m { m.regs with a := m.a - v, cc := subFlags h m.a v }) ∧
    (RowIs (.subbAdr v) [0x2D, v] 7 ∧
      ∃ h, RunsTo (.subbAdr v) m
        { m.regs with b := m.b - m.mem.read v, cc := subFlags h m.b (m.mem.read v) }) ∧
    (RowIs (.subbImm v) [0x2F, v] 6 ∧
      ∃ h, RunsTo (.subbImm v) m { m.regs with b := m.b - v, cc := subFlags h m.b v })

/-- NEG in place (C and V: the spec's choice, log 7 and log 8; H is any value, log 4)
(43_arithmetic.md (NEG rows); 92_eei_decisions.md D6, D7, D8). -/
def Obligations.NegateInPlace : Prop :=
  ∀ (m : State) (v : Byte),
    (RowIs .nega [0x30] 5 ∧
      ∃ h, RunsTo .nega m
        { m.regs with
          a := 0 - m.a
          cc := ⟨h, (0 - m.a).msb, decide (m.a = 0), decide (m.a = 0x80), decide (m.a ≠ 0)⟩ }) ∧
    (RowIs .negb [0x31] 5 ∧
      ∃ h, RunsTo .negb m
        { m.regs with
          b := 0 - m.b
          cc := ⟨h, (0 - m.b).msb, decide (m.b = 0), decide (m.b = 0x80), decide (m.b ≠ 0)⟩ }) ∧
    (RowIs (.negAdr v) [0x32, v] 7 ∧
      ∃ h, StoresTo (.negAdr v) m
        { m.regs with
          cc := ⟨h, (0 - m.mem.read v).msb, decide (m.mem.read v = 0),
            decide (m.mem.read v = 0x80), decide (m.mem.read v ≠ 0)⟩ }
        v (0 - m.mem.read v))

/-- ASL in place (C and V: the spec's choice, log 8; H is any value, log 4) (43_arithmetic.md (ASL
rows); 92_eei_decisions.md D7, D8). -/
def Obligations.ShiftLeftInPlace : Prop :=
  ∀ (m : State) (v : Byte),
    (RowIs .asla [0x33] 4 ∧
      ∃ h, RunsTo .asla m
        { m.regs with a := shiftedLeft m.a false, cc := shiftFlags h m.a false }) ∧
    (RowIs .aslb [0x34] 4 ∧
      ∃ h, RunsTo .aslb m
        { m.regs with b := shiftedLeft m.b false, cc := shiftFlags h m.b false }) ∧
    (RowIs (.aslAdr v) [0x35, v] 6 ∧
      ∃ h, StoresTo (.aslAdr v) m
        { m.regs with
          cc := shiftFlags h (m.mem.read v) false }
        v (shiftedLeft (m.mem.read v) false))

/-- ROL in place, through the old carry (C and V: the spec's choice, log 8; H is any value, log 4)
(43_arithmetic.md (ROL rows); 92_eei_decisions.md D7, D8). -/
def Obligations.RotateLeftInPlace : Prop :=
  ∀ (m : State) (v : Byte),
    (RowIs .rola [0x36] 4 ∧
      ∃ h, RunsTo .rola m
        { m.regs with a := shiftedLeft m.a m.cc.c, cc := shiftFlags h m.a m.cc.c }) ∧
    (RowIs .rolb [0x37] 4 ∧
      ∃ h, RunsTo .rolb m
        { m.regs with b := shiftedLeft m.b m.cc.c, cc := shiftFlags h m.b m.cc.c }) ∧
    (RowIs (.rolAdr v) [0x38, v] 6 ∧
      ∃ h, StoresTo (.rolAdr v) m
        { m.regs with
          cc := shiftFlags h (m.mem.read v) m.cc.c }
        v (shiftedLeft (m.mem.read v) m.cc.c))

/-- INC in place (C and V: the spec's choice, log 8; H is any value, log 4) (43_arithmetic.md (INC
rows); 92_eei_decisions.md D7, D8). -/
def Obligations.IncrementInPlace : Prop :=
  ∀ (m : State) (v : Byte),
    (RowIs .inca [0x39] 4 ∧
      ∃ h, RunsTo .inca m
        { m.regs with
          a := m.a + 1
          cc := ⟨h, (m.a + 1).msb, decide (m.a = 0xFF), decide (m.a = 0x7F),
            decide (m.a = 0xFF)⟩ }) ∧
    (RowIs .incb [0x3A] 4 ∧
      ∃ h, RunsTo .incb m
        { m.regs with
          b := m.b + 1
          cc := ⟨h, (m.b + 1).msb, decide (m.b = 0xFF), decide (m.b = 0x7F),
            decide (m.b = 0xFF)⟩ }) ∧
    (RowIs (.incAdr v) [0x3B, v] 6 ∧
      ∃ h, StoresTo (.incAdr v) m
        { m.regs with
          cc := ⟨h, (m.mem.read v + 1).msb, decide (m.mem.read v = 0xFF),
            decide (m.mem.read v = 0x7F), decide (m.mem.read v = 0xFF)⟩ }
        v (m.mem.read v + 1))

/-- DEC in place (C and V: the spec's choice, log 7 and log 8; H is any value, log 4)
(43_arithmetic.md (DEC rows); 92_eei_decisions.md D6, D7, D8). -/
def Obligations.DecrementInPlace : Prop :=
  ∀ (m : State) (v : Byte),
    (RowIs .deca [0x3C] 4 ∧
      ∃ h, RunsTo .deca m
        { m.regs with
          a := m.a - 1
          cc := ⟨h, (m.a - 1).msb, decide (m.a = 1), decide (m.a = 0x80), decide (m.a = 0)⟩ }) ∧
    (RowIs .decb [0x3D] 4 ∧
      ∃ h, RunsTo .decb m
        { m.regs with
          b := m.b - 1
          cc := ⟨h, (m.b - 1).msb, decide (m.b = 1), decide (m.b = 0x80), decide (m.b = 0)⟩ }) ∧
    (RowIs (.decAdr v) [0x3E, v] 6 ∧
      ∃ h, StoresTo (.decAdr v) m
        { m.regs with
          cc := ⟨h, (m.mem.read v - 1).msb, decide (m.mem.read v = 1),
            decide (m.mem.read v = 0x80), decide (m.mem.read v = 0)⟩ }
        v (m.mem.read v - 1))

/-- CLR of A, B and a memory byte (V is any value, log 4) (43_arithmetic.md (CLR rows);
92_eei_decisions.md D8, D22). -/
def Obligations.ClearInPlace : Prop :=
  ∀ (m : State) (v : Byte),
    (RowIs .clra [0x3F] 4 ∧
      ∃ w, RunsTo .clra m { m.regs with a := 0, cc := ⟨false, false, true, w, false⟩ }) ∧
    (RowIs .clrb [0x40] 4 ∧
      ∃ w, RunsTo .clrb m { m.regs with b := 0, cc := ⟨false, false, true, w, false⟩ }) ∧
    (RowIs (.clrAdr v) [0x41, v] 5 ∧
      ∃ w, StoresTo (.clrAdr v) m { m.regs with cc := ⟨false, false, true, w, false⟩ } v 0)

/-- CMP of A, B, X, S with memory and immediate (the carry is the borrow, log 7; H is any value,
log 4) (44_test.md (CMP rows); 92_eei_decisions.md D6, D8). -/
def Obligations.CompareSetsTheFlagsOfADifference : Prop :=
  ∀ (m : State) (v : Byte),
    (RowIs (.cmpaAdr v) [0x42, v] 6 ∧
      ∃ h, RunsTo (.cmpaAdr v) m { m.regs with cc := subFlags h m.a (m.mem.read v) }) ∧
    (RowIs (.cmpbAdr v) [0x43, v] 6 ∧
      ∃ h, RunsTo (.cmpbAdr v) m { m.regs with cc := subFlags h m.b (m.mem.read v) }) ∧
    (RowIs (.cmpxAdr v) [0x44, v] 6 ∧
      ∃ h, RunsTo (.cmpxAdr v) m { m.regs with cc := subFlags h m.x (m.mem.read v) }) ∧
    (RowIs (.cmpsAdr v) [0x45, v] 6 ∧
      ∃ h, RunsTo (.cmpsAdr v) m { m.regs with cc := subFlags h m.s (m.mem.read v) }) ∧
    (RowIs (.cmpaImm v) [0x46, v] 5 ∧
      ∃ h, RunsTo (.cmpaImm v) m { m.regs with cc := subFlags h m.a v }) ∧
    (RowIs (.cmpbImm v) [0x47, v] 5 ∧
      ∃ h, RunsTo (.cmpbImm v) m { m.regs with cc := subFlags h m.b v }) ∧
    (RowIs (.cmpxImm v) [0x48, v] 5 ∧
      ∃ h, RunsTo (.cmpxImm v) m { m.regs with cc := subFlags h m.x v }) ∧
    (RowIs (.cmpsImm v) [0x49, v] 5 ∧
      ∃ h, RunsTo (.cmpsImm v) m { m.regs with cc := subFlags h m.s v })

/-- TST of A, B and a memory byte, BIT of A and B with memory and immediate (H is any value, log
4) (44_test.md (TST and BIT rows); 90_conflicts.md C5; 92_eei_decisions.md D8, D22). -/
def Obligations.TestAndBitTestSetTheFlags : Prop :=
  ∀ (m : State) (v : Byte),
    (RowIs .tsta [0x4A] 3 ∧ ∃ h, RunsTo .tsta m { m.regs with cc := logicFlags h m.a }) ∧
    (RowIs .tstb [0x4B] 3 ∧ ∃ h, RunsTo .tstb m { m.regs with cc := logicFlags h m.b }) ∧
    (RowIs (.tstAdr v) [0x4C, v] 5 ∧
      ∃ h, RunsTo (.tstAdr v) m { m.regs with cc := logicFlags h (m.mem.read v) }) ∧
    (RowIs (.bitaAdr v) [0x4D, v] 6 ∧
      ∃ h, RunsTo (.bitaAdr v) m { m.regs with cc := logicFlags h (m.a &&& m.mem.read v) }) ∧
    (RowIs (.bitbAdr v) [0x4E, v] 6 ∧
      ∃ h, RunsTo (.bitbAdr v) m { m.regs with cc := logicFlags h (m.b &&& m.mem.read v) }) ∧
    (RowIs (.bitaImm v) [0x4F, v] 5 ∧
      ∃ h, RunsTo (.bitaImm v) m { m.regs with cc := logicFlags h (m.a &&& v) }) ∧
    (RowIs (.bitbImm v) [0x50, v] 5 ∧
      ∃ h, RunsTo (.bitbImm v) m { m.regs with cc := logicFlags h (m.b &&& v) })

/-- JMP goes to its operand (R242). -/
def Obligations.JmpGoesToItsOperand : Prop :=
  ∀ (m : State) (v : Byte),
    RowIs (.jmpAdr v) [0x51, v] 4 ∧ RunsTo (.jmpAdr v) m { m.regs with pc := v }

/-- BRA, and the branches on one flag (the base of the sum is the next instruction: the spec's
choice, log 9; rows recovered from damaged text: log 22) (45_jump.md section on branch conditions
and BRA to BCC; 90_conflicts.md C4; 92_eei_decisions.md D3, D4, D5). -/
def Obligations.BranchesOnOneFlag : Prop :=
  ∀ (m : State) (v : Byte),
    (RowIs (.braOffs v) [0x52, v] 6 ∧ RunsTo (.braOffs v) m { m.regs with pc := m.pc + v }) ∧
    (RowIs (.bmiOffs v) [0x53, v] 6 ∧
      RunsTo (.bmiOffs v) m { m.regs with pc := if m.cc.n = true then m.pc + v else m.pc }) ∧
    (RowIs (.bplOffs v) [0x54, v] 6 ∧
      RunsTo (.bplOffs v) m { m.regs with pc := if m.cc.n = false then m.pc + v else m.pc }) ∧
    (RowIs (.beqOffs v) [0x55, v] 6 ∧
      RunsTo (.beqOffs v) m { m.regs with pc := if m.cc.z = true then m.pc + v else m.pc }) ∧
    (RowIs (.bneOffs v) [0x56, v] 6 ∧
      RunsTo (.bneOffs v) m { m.regs with pc := if m.cc.z = false then m.pc + v else m.pc }) ∧
    (RowIs (.bvsOffs v) [0x57, v] 6 ∧
      RunsTo (.bvsOffs v) m { m.regs with pc := if m.cc.v = true then m.pc + v else m.pc }) ∧
    (RowIs (.bvcOffs v) [0x58, v] 6 ∧
      RunsTo (.bvcOffs v) m { m.regs with pc := if m.cc.v = false then m.pc + v else m.pc }) ∧
    (RowIs (.bcsOffs v) [0x59, v] 6 ∧
      RunsTo (.bcsOffs v) m { m.regs with pc := if m.cc.c = true then m.pc + v else m.pc }) ∧
    (RowIs (.bccOffs v) [0x5A, v] 6 ∧
      RunsTo (.bccOffs v) m { m.regs with pc := if m.cc.c = false then m.pc + v else m.pc })

/-- The branches on several flags (the base of the sum is the next instruction: the spec's choice,
log 9; rows recovered from damaged text: log 22) (45_jump.md section on branch conditions and BHI
to BLT; 90_conflicts.md C4; 92_eei_decisions.md D3, D4, D5). -/
def Obligations.BranchesOnAnOrder : Prop :=
  ∀ (m : State) (v : Byte),
    (RowIs (.bhiOffs v) [0x5B, v] 6 ∧
      RunsTo (.bhiOffs v) m
        { m.regs with pc := if m.cc.c = false ∧ m.cc.z = false then m.pc + v else m.pc }) ∧
    (RowIs (.blsOffs v) [0x5C, v] 6 ∧
      RunsTo (.blsOffs v) m
        { m.regs with pc := if m.cc.c = true ∨ m.cc.z = true then m.pc + v else m.pc }) ∧
    (RowIs (.bgtOffs v) [0x5D, v] 6 ∧
      RunsTo (.bgtOffs v) m
        { m.regs with pc := if m.cc.n = m.cc.v ∧ m.cc.z = false then m.pc + v else m.pc }) ∧
    (RowIs (.bgeOffs v) [0x5E, v] 6 ∧
      RunsTo (.bgeOffs v) m { m.regs with pc := if m.cc.n = m.cc.v then m.pc + v else m.pc }) ∧
    (RowIs (.bleOffs v) [0x5F, v] 6 ∧
      RunsTo (.bleOffs v) m
        { m.regs with pc := if m.cc.n ≠ m.cc.v ∨ m.cc.z = true then m.pc + v else m.pc }) ∧
    (RowIs (.bltOffs v) [0x60, v] 6 ∧
      RunsTo (.bltOffs v) m { m.regs with pc := if m.cc.n ≠ m.cc.v then m.pc + v else m.pc })

/-- After any CMP, the branches decide the unsigned and the signed order (borrow: log 7; branch
base: log 9; branch rows recovered from damaged text: log 22) (44_test.md (CMP rows); 45_jump.md
section on branch conditions; 90_conflicts.md C4; 92_eei_decisions.md D3, D6). -/
def Obligations.CompareThenBranchDecidesTheOrder : Prop :=
  ∀ (m : State) (v : Byte),
    DecidesTheOrder (.cmpaAdr v) m m.a (m.mem.read v) ∧
    DecidesTheOrder (.cmpbAdr v) m m.b (m.mem.read v) ∧
    DecidesTheOrder (.cmpxAdr v) m m.x (m.mem.read v) ∧
    DecidesTheOrder (.cmpsAdr v) m m.s (m.mem.read v) ∧
    DecidesTheOrder (.cmpaImm v) m m.a v ∧
    DecidesTheOrder (.cmpbImm v) m m.b v ∧
    DecidesTheOrder (.cmpxImm v) m m.x v ∧
    DecidesTheOrder (.cmpsImm v) m m.s v

/-- JSR and BSR push the address of the next instruction and jump (its choice as the base: log 9;
the steps of BSR recovered from damaged text: log 22) (45_jump.md (JSR and BSR rows);
90_conflicts.md C4, C9; 92_eei_decisions.md D3, D4). -/
def Obligations.CallsPushTheReturnAddress : Prop :=
  ∀ (m : State) (v : Byte),
    (RowIs (.jsrAdr v) [0x61, v] 7 ∧
      StoresTo (.jsrAdr v) m { m.regs with s := m.s - 1, pc := v } (m.s - 1) m.pc) ∧
    (RowIs (.bsrOffs v) [0x63, v] 8 ∧
      StoresTo (.bsrOffs v) m { m.regs with s := m.s - 1, pc := m.pc + v } (m.s - 1) m.pc)

/-- RTS pulls PC (45_jump.md (RTS row); 92_eei_decisions.md D4). -/
def Obligations.RtsPullsPc : Prop :=
  ∀ m : State,
    RowIs .rts [0x62] 4 ∧ RunsTo .rts m { m.regs with s := m.s + 1, pc := m.mem.read m.s }

/-- After JSR or BSR, a subroutine that leaves S and the return address as they are returns to the
instruction after the call (base: log 9; steps of BSR: log 22) (45_jump.md (JSR, BSR and RTS
rows); 90_conflicts.md C4, C9; 92_eei_decisions.md D3). -/
def Obligations.CallThenReturn : Prop :=
  ∀ (m : State) (v : Byte),
    (∃ t, exec (.jsrAdr v) m = .next t ∧ ∀ w : State, w.s = t.s → w.mem.read t.s = t.mem.read t.s →
      RunsTo .rts w { w.regs with s := m.s, pc := m.pc }) ∧
    (∃ t, exec (.bsrOffs v) m = .next t ∧ ∀ w : State, w.s = t.s → w.mem.read t.s = t.mem.read t.s →
      RunsTo .rts w { w.regs with s := m.s, pc := m.pc })

/-- RTI pulls A, B, CC, X and PC (the layout of CC: the spec's choice, log 6) (45_jump.md (RTI
row); 60_exceptions.md section 4; 92_eei_decisions.md D1, D4). -/
def Obligations.RtiPullsFiveBytes : Prop :=
  ∀ m : State,
    RowIs .rti [0x64] 12 ∧
      RunsTo .rti m ⟨m.mem.read m.s, m.mem.read (m.s + 1), m.mem.read (m.s + 3), m.s + 5,
        m.mem.read (m.s + 4), byteToCC (m.mem.read (m.s + 2))⟩

/-- PSHS A, B, CC, X (the image of CC: the spec's choice, log 5 and log 6) (46_stack.md (PSHS
rows); 92_eei_decisions.md D1, D2, D4). -/
def Obligations.PushesStoreBelowS : Prop :=
  ∀ m : State,
    (RowIs .pshsA [0x65] 5 ∧ StoresTo .pshsA m { m.regs with s := m.s - 1 } (m.s - 1) m.a) ∧
    (RowIs .pshsB [0x66] 5 ∧ StoresTo .pshsB m { m.regs with s := m.s - 1 } (m.s - 1) m.b) ∧
    (RowIs .pshsX [0x68] 5 ∧ StoresTo .pshsX m { m.regs with s := m.s - 1 } (m.s - 1) m.x) ∧
    (RowIs .pshsCC [0x67] 5 ∧
      ∃ u, StoresTo .pshsCC m { m.regs with s := m.s - 1 } (m.s - 1) (ccToByte m.cc u))

/-- PULS A, B, CC, X (the layout of CC: the spec's choice, log 6) (46_stack.md (PULS rows);
92_eei_decisions.md D1, D4). -/
def Obligations.PullsLoadFromS : Prop :=
  ∀ m : State,
    (RowIs .pulsA [0x69] 4 ∧ RunsTo .pulsA m { m.regs with a := m.mem.read m.s, s := m.s + 1 }) ∧
    (RowIs .pulsB [0x6A] 4 ∧ RunsTo .pulsB m { m.regs with b := m.mem.read m.s, s := m.s + 1 }) ∧
    (RowIs .pulsX [0x6C] 4 ∧ RunsTo .pulsX m { m.regs with x := m.mem.read m.s, s := m.s + 1 }) ∧
    (RowIs .pulsCC [0x6B] 4 ∧
      RunsTo .pulsCC m { m.regs with cc := byteToCC (m.mem.read m.s), s := m.s + 1 })

/-- A pull after a push gives back what was pushed (46_stack.md (PSHS and PULS rows); 20_memory.md
section 4 (a pull after a push sees the pushed value); 92_eei_decisions.md D1). -/
def Obligations.PushThenPullRestores : Prop :=
  ∀ m : State,
    (∃ t, exec .pshsA m = .next t ∧ ∀ w : State, w.s = t.s → w.mem.read t.s = t.mem.read t.s →
      RunsTo .pulsA w { w.regs with s := m.s, a := m.a }) ∧
    (∃ t, exec .pshsB m = .next t ∧ ∀ w : State, w.s = t.s → w.mem.read t.s = t.mem.read t.s →
      RunsTo .pulsB w { w.regs with s := m.s, b := m.b }) ∧
    (∃ t, exec .pshsCC m = .next t ∧ ∀ w : State, w.s = t.s → w.mem.read t.s = t.mem.read t.s →
      RunsTo .pulsCC w { w.regs with s := m.s, cc := m.cc }) ∧
    (∃ t, exec .pshsX m = .next t ∧ ∀ w : State, w.s = t.s → w.mem.read t.s = t.mem.read t.s →
      RunsTo .pulsX w { w.regs with s := m.s, x := m.x })

/-- LEAX replaces X by a computed address (modulo 256, log 10) (47_leax.md; 92_eei_decisions.md
D4, D5). -/
def Obligations.LeaxComputesX : Prop :=
  ∀ (m : State) (v : Byte),
    (RowIs .leaxDecX [0x6D] 4 ∧ RunsTo .leaxDecX m { m.regs with x := m.x - 1 }) ∧
    (RowIs .leaxXInc [0x6E] 4 ∧ RunsTo .leaxXInc m { m.regs with x := m.x + 1 }) ∧
    (RowIs (.leaxNX v) [0x6F, v] 6 ∧ RunsTo (.leaxNX v) m { m.regs with x := m.x + v }) ∧
    (RowIs .leaxAX [0x70] 5 ∧ RunsTo .leaxAX m { m.regs with x := m.x + m.a }) ∧
    (RowIs .leaxBX [0x71] 5 ∧ RunsTo .leaxBX m { m.regs with x := m.x + m.b })

/-- LDA and LDB through X, X unchanged (modulo 256, log 10) (48_indexed_transfer.md (LDA and LDB
rows); 92_eei_decisions.md D4, D5). -/
def Obligations.IndexedLoadsThatKeepX : Prop :=
  ∀ (m : State) (v : Byte),
    (RowIs .ldaX [0x72] 4 ∧ RunsTo .ldaX m { m.regs with a := m.mem.read m.x }) ∧
    (RowIs .ldbX [0x73] 4 ∧ RunsTo .ldbX m { m.regs with b := m.mem.read m.x }) ∧
    (RowIs (.ldaNX v) [0x78, v] 7 ∧ RunsTo (.ldaNX v) m { m.regs with a := m.mem.read (v + m.x) }) ∧
    (RowIs (.ldbNX v) [0x79, v] 7 ∧ RunsTo (.ldbNX v) m { m.regs with b := m.mem.read (v + m.x) }) ∧
    (RowIs .ldaAX [0x7A] 6 ∧ RunsTo .ldaAX m { m.regs with a := m.mem.read (m.a + m.x) }) ∧
    (RowIs .ldbAX [0x7B] 6 ∧ RunsTo .ldbAX m { m.regs with b := m.mem.read (m.a + m.x) }) ∧
    (RowIs .ldaBX [0x7C] 6 ∧ RunsTo .ldaBX m { m.regs with a := m.mem.read (m.b + m.x) }) ∧
    (RowIs .ldbBX [0x7D] 6 ∧ RunsTo .ldbBX m { m.regs with b := m.mem.read (m.b + m.x) })

/-- LDA and LDB with ,X+ and ,-X (modulo 256, log 10) (48_indexed_transfer.md (LDA and LDB rows);
92_eei_decisions.md D4). -/
def Obligations.IndexedLoadsThatStepX : Prop :=
  ∀ m : State,
    (RowIs .ldaXInc [0x74] 5 ∧
      RunsTo .ldaXInc m { m.regs with a := m.mem.read m.x, x := m.x + 1 }) ∧
    (RowIs .ldbXInc [0x75] 5 ∧
      RunsTo .ldbXInc m { m.regs with b := m.mem.read m.x, x := m.x + 1 }) ∧
    (RowIs .ldaDecX [0x76] 5 ∧
      RunsTo .ldaDecX m { m.regs with a := m.mem.read (m.x - 1), x := m.x - 1 }) ∧
    (RowIs .ldbDecX [0x77] 5 ∧
      RunsTo .ldbDecX m { m.regs with b := m.mem.read (m.x - 1), x := m.x - 1 })

/-- STA and STB through X, X unchanged (modulo 256, log 10; STB B,X stores B, log 17)
(48_indexed_transfer.md (STA and STB rows); 90_conflicts.md C1; 92_eei_decisions.md D4, D5, D20).
-/
def Obligations.IndexedStoresThatKeepX : Prop :=
  ∀ (m : State) (v : Byte),
    (RowIs .staX [0x7E] 4 ∧ StoresTo .staX m m.regs m.x m.a) ∧
    (RowIs .stbX [0x7F] 4 ∧ StoresTo .stbX m m.regs m.x m.b) ∧
    (RowIs (.staNX v) [0x84, v] 7 ∧ StoresTo (.staNX v) m m.regs (v + m.x) m.a) ∧
    (RowIs (.stbNX v) [0x85, v] 7 ∧ StoresTo (.stbNX v) m m.regs (v + m.x) m.b) ∧
    (RowIs .staAX [0x86] 6 ∧ StoresTo .staAX m m.regs (m.a + m.x) m.a) ∧
    (RowIs .stbAX [0x87] 6 ∧ StoresTo .stbAX m m.regs (m.a + m.x) m.b) ∧
    (RowIs .staBX [0x88] 6 ∧ StoresTo .staBX m m.regs (m.b + m.x) m.a) ∧
    (RowIs .stbBX [0x89] 6 ∧ StoresTo .stbBX m m.regs (m.b + m.x) m.b)

/-- STA and STB with ,X+ and ,-X (modulo 256, log 10) (48_indexed_transfer.md (STA and STB rows);
92_eei_decisions.md D4). -/
def Obligations.IndexedStoresThatStepX : Prop :=
  ∀ m : State,
    (RowIs .staXInc [0x80] 5 ∧ StoresTo .staXInc m { m.regs with x := m.x + 1 } m.x m.a) ∧
    (RowIs .stbXInc [0x81] 5 ∧ StoresTo .stbXInc m { m.regs with x := m.x + 1 } m.x m.b) ∧
    (RowIs .staDecX [0x82] 5 ∧ StoresTo .staDecX m { m.regs with x := m.x - 1 } (m.x - 1) m.a) ∧
    (RowIs .stbDecX [0x83] 5 ∧ StoresTo .stbDecX m { m.regs with x := m.x - 1 } (m.x - 1) m.b)

/-- An IRQ at an instruction boundary pushes PC, X, CC, B, A and goes to the interrupt routine
(the sequence is the spec's, log 12) (60_exceptions.md section 2 (IRQ entry, where control goes);
20_memory.md section 5; 92_eei_decisions.md D11, D12). -/
def Obligations.IrqEntryPushesTheFrame : Prop :=
  ∀ (m : State) (later : List Input), m.inputs = .irq :: later →
    ∃ t u, step m = .next t ∧
      t.regs = { m.regs with s := m.s - 5, pc := Config.irqPc t.mem.read } ∧
      t.inputs = later ∧ t.image = m.image ∧
      t.mem.read (m.s - 1) = m.pc ∧ t.mem.read (m.s - 2) = m.x ∧
      t.mem.read (m.s - 3) = ccToByte m.cc u ∧ t.mem.read (m.s - 4) = m.b ∧
      t.mem.read (m.s - 5) = m.a ∧
      ∀ adr, adr ≠ m.s - 1 → adr ≠ m.s - 2 → adr ≠ m.s - 3 → adr ≠ m.s - 4 → adr ≠ m.s - 5 →
        t.mem.read adr = m.mem.read adr

/-- RTI resumes the interrupted program with all its registers and flags, if the routine leaves S
and the frame as entry left them (the frame is the spec's, log 12) (60_exceptions.md section 4
(return); 60_exceptions.md section 2 (IRQ entry); 92_eei_decisions.md D1, D12). -/
def Obligations.RtiUndoesIrqEntry : Prop :=
  ∀ (m t w : State) (later : List Input), m.inputs = .irq :: later → step m = .next t →
    w.s = t.s → (∀ k : Byte, k.toNat < 5 → w.mem.read (t.s + k) = t.mem.read (t.s + k)) →
    RunsTo .rti w m.regs

/-- Interrupts nest: as many RTIs as entries restore the interrupted program, as long as the
frames fit in memory (the frame is the spec's, log 12) (60_exceptions.md section 4 (nesting);
60_exceptions.md section 2 (IRQ entry); 92_eei_decisions.md D1, D4, D12). -/
def Obligations.NestedIrqsUnwind : Prop :=
  ∀ (n : Nat) (m : State) (later : List Input), 5 * n ≤ 256 →
    m.inputs = List.replicate n .irq ++ later →
    ∃ t u, runSteps n m = .next t ∧ executeTimes n .rti t = .next u ∧
      u.regs = m.regs ∧ u.inputs = later ∧
      ∀ adr : Byte, 5 * n ≤ (m.s - 1 - adr).toNat → u.mem.read adr = m.mem.read adr

/-- RESET sends PC to RESET_PC and leaves in an image byte the image's value or the old one
(RESET_PC, what RESET leaves: the model's choice, log 2, log 14) (60_exceptions.md section 2
(RESET); 70_reset_and_hazards.md section 1; 10_state.md section 5; 92_eei_decisions.md D10). -/
def Obligations.ResetRestartsAtResetPc : Prop :=
  ∀ (m : State) (later : List Input), m.inputs = .reset :: later →
    ∃ t, step m = .next t ∧ t.pc = Config.resetPc ∧ t.inputs = later ∧ t.image = m.image ∧
      ∀ adr v : Byte, m.image.find adr.toNat = some v →
        t.mem.read adr = v ∨ t.mem.read adr = m.mem.read adr

/-- RESET inside an IRQ entry restarts; an image byte is the image's or what the pushes done left
(frame: log 12; what RESET leaves: the model's choice, log 14) (60_exceptions.md section 3
(priority); 60_exceptions.md section 2 (RESET, IRQ entry); 70_reset_and_hazards.md section 1;
92_eei_decisions.md D10, D12, D13). -/
def Obligations.ResetInIrqEntryLeavesAPrefix : Prop :=
  ∀ (m : State) (later : List Input) (k : Nat), m.inputs = .resetInEntry k :: later →
    ∃ t u, step m = .next t ∧ t.pc = Config.resetPc ∧ t.inputs = later ∧ t.image = m.image ∧
      ∀ adr v : Byte, m.image.find adr.toNat = some v →
        t.mem.read adr = v ∨
          t.mem.read adr =
            if 1 ≤ k ∧ adr = m.s - 1 then m.pc
            else if 2 ≤ k ∧ adr = m.s - 2 then m.x
            else if 3 ≤ k ∧ adr = m.s - 3 then ccToByte m.cc u
            else if 4 ≤ k ∧ adr = m.s - 4 then m.b
            else if 5 ≤ k ∧ adr = m.s - 5 then m.a
            else m.mem.read adr

/-- The state after power-on reset, and with a launch image (PC and the registers: the model's
choice, log 1 and log 2; the rest of memory: log 3) (10_state.md section 5; 92_eei_decisions.md
D10, D14). -/
def Obligations.ResetState : Prop :=
  State.reset.regs = ⟨0, 0, 0, 0, Config.resetPc, ⟨false, false, false, false, false⟩⟩ ∧
  State.reset.inputs = [] ∧ State.reset.mem = [] ∧ State.reset.image = [] ∧
  ∀ image : Memory,
    (State.launch image).regs = State.reset.regs ∧ (State.launch image).inputs = [] ∧
    (State.launch image).image = image ∧
    ∀ adr : Byte,
      (State.launch image).mem.read adr =
        (image.find adr.toNat).getD (Config.powerOnByte adr)

/-- At the end of a run every later state shows the program the same (the convention is the
spec's, log 20) (70_reset_and_hazards.md section 4 (end of a run); 92_eei_decisions.md D18). -/
def Obligations.EndOfRunIsFinal : Prop :=
  ∀ (k : Nat) (m : State), m.inputs = [] → m.atEndOfRun →
    ∃ t, runSteps k m = .next t ∧ t.regs = m.regs ∧ t.mem = m.mem ∧ t.inputs = [] ∧
      t.atEndOfRun

/-- A store is seen by the fetch of the very next instruction, in its opcode and in its operand
(layout of the fetch: log 23; order of accesses: log 18) (20_memory.md section 4 (fetch
coherence); 20_memory.md section 2 (accesses of each instruction); 92_eei_decisions.md D15, D21,
D22). -/
def Obligations.StoreIsSeenByTheNextFetch : Prop :=
  ∀ (m : State) (i : Instr) (rest : List Byte) (adr v : Byte), m.runsNext = true →
    decode [m.mem.read m.pc, m.mem.read (m.pc + 1)] = .ok (i, rest) →
    storeAddress i (m.fetched i) = some adr → storedByte i (m.fetched i) = some v →
    ∃ t, step m = .next t ∧ t.inputs = m.inputs.tail ∧
      ∀ (j : Instr) (rest2 : List Byte), t.runsNext = true →
        decode [if t.pc = adr then v else m.mem.read t.pc,
          if t.pc + 1 = adr then v else m.mem.read (t.pc + 1)] = .ok (j, rest2) →
        step t = exec j (t.fetched j)
end

