-- ==== Sys2Proof/Laws/Flags.lean ====
section
/-!
SUPPORT. What the flag computations answer, in closed form.
-/

namespace Sys2Proof.Machine

@[simp] theorem flagN_eq_msb (r : Byte) : flagN r = r.msb := by
  simp [flagN, BitVec.msb_eq_getLsbD_last]

@[simp] theorem flagZ_eq_decide (r : Byte) : flagZ r = decide (r = 0) := by
  simp [flagZ, beq_eq_decide]

@[simp] theorem outOfRange_eq_decide (z : Int) : outOfRange z = decide (z < -128 ∨ 127 < z) := by
  simp [outOfRange]

@[simp] theorem add8_r (p q : Byte) : (add8 p q false).r = p + q := by
  apply BitVec.eq_of_toNat_eq
  simp [add8]

@[simp] theorem add8_h (p q : Byte) :
    (add8 p q false).h = decide (15 < p.toNat % 16 + q.toNat % 16) := by
  simp [add8]

@[simp] theorem add8_v (p q : Byte) :
    (add8 p q false).v = decide (p.toInt + q.toInt < -128 ∨ 127 < p.toInt + q.toInt) := by
  simp [add8]

@[simp] theorem add8_c (p q : Byte) : (add8 p q false).c = decide (255 < p.toNat + q.toNat) := by
  simp [add8]

@[simp] theorem sub8_r (p q : Byte) : (sub8 p q).r = p - q := rfl

@[simp] theorem sub8_v (p q : Byte) :
    (sub8 p q).v = decide (p.toInt - q.toInt < -128 ∨ 127 < p.toInt - q.toInt) := by
  simp [sub8]

@[simp] theorem sub8_c (p q : Byte) : (sub8 p q).c = decide (p.toNat < q.toNat) := rfl

@[simp] theorem shl8_r (v : Byte) (low : Bool) : (shl8 v low).r = v + v + (if low then 1 else 0) := by
  apply BitVec.eq_of_toNat_eq
  cases low <;> simp [shl8] <;> omega

@[simp] theorem shl8_v (v : Byte) (low : Bool) : (shl8 v low).v = (v.msb ^^ v.getLsbD 6) := by
  simp [shl8, BitVec.msb_eq_getLsbD_last]

@[simp] theorem shl8_c (v : Byte) (low : Bool) : (shl8 v low).c = v.msb := by
  simp [shl8, BitVec.msb_eq_getLsbD_last]

end Sys2Proof.Machine
end

