-- ==== Sys2Proof/Laws/Memory.lean ====
section
/-!
SUPPORT. The laws of memory: what a read answers after a write, and that every memory operation keeps
the canonical form.
-/

namespace Sys2Proof.Machine

theorem Memory.find_insertCell_same (mem : Memory) (a : Nat) (v : Byte) :
    (mem.insertCell a v).find a = some v := by
  induction mem with
  | nil => simp [Memory.insertCell, Memory.find]
  | cons c rest ih =>
    obtain ⟨k, w⟩ := c
    simp only [Memory.insertCell]
    split
    · simp [Memory.find]
    · split
      · simp [Memory.find]
      · simp [Memory.find, *]

theorem Memory.find_insertCell_other (mem : Memory) {a b : Nat} (v : Byte) (h : b ≠ a) :
    (mem.insertCell a v).find b = mem.find b := by
  induction mem with
  | nil => simp [Memory.insertCell, Memory.find, h]
  | cons c rest ih =>
    obtain ⟨k, w⟩ := c
    simp only [Memory.insertCell]
    split
    · simp [Memory.find, h]
    · split
      · rename_i hk
        subst hk
        simp [Memory.find, h]
      · simp [Memory.find, ih]

/-- Every location takes a store: `MEM_MAP` has plain memory everywhere (log 15). -/
theorem Memory.write_eq (mem : Memory) (a v : Byte) : mem.write a v = mem.insertCell a.toNat v := rfl

/-- A read of the address just written gives the byte written (20_memory.md R51). -/
@[simp] theorem Memory.read_write_same (mem : Memory) (a v : Byte) : (mem.write a v).read a = v := by
  simp [Memory.read, Memory.write_eq, Memory.find_insertCell_same]

/-- A write changes no other location (20_memory.md R51). -/
theorem Memory.read_write_other (mem : Memory) {a b : Byte} (v : Byte) (h : b ≠ a) :
    (mem.write a v).read b = mem.read b := by
  have hn : b.toNat ≠ a.toNat := fun e => h (BitVec.eq_of_toNat_eq e)
  simp [Memory.read, Memory.write_eq, Memory.find_insertCell_other mem v hn]

/-- What any address reads as after a write. -/
theorem Memory.read_write (mem : Memory) (a b v : Byte) :
    (mem.write a v).read b = if b = a then v else mem.read b := by
  split
  · next h => rw [h, Memory.read_write_same]
  · next h => exact Memory.read_write_other mem v h

theorem Memory.wfFrom_insertCell (mem : Memory) (lo a : Nat) (v : Byte) (ha : a < 256) (hlo : lo ≤ a)
    (h : Memory.wfFrom lo mem = true) : Memory.wfFrom lo (mem.insertCell a v) = true := by
  induction mem generalizing lo with
  | nil => simp [Memory.insertCell, Memory.wfFrom, ha, hlo]
  | cons c rest ih =>
    obtain ⟨k, w⟩ := c
    simp only [Memory.wfFrom, Bool.and_eq_true, decide_eq_true_eq] at h
    obtain ⟨⟨hk, hk2⟩, hr⟩ := h
    simp only [Memory.insertCell]
    split
    · next hlt =>
      simp only [Memory.wfFrom, Bool.and_eq_true, decide_eq_true_eq]
      exact ⟨⟨hlo, ha⟩, ⟨hlt, hk2⟩, hr⟩
    · split
      · next he =>
        subst he
        simp only [Memory.wfFrom, Bool.and_eq_true, decide_eq_true_eq]
        exact ⟨⟨hlo, ha⟩, hr⟩
      · next hnlt hne =>
        simp only [Memory.wfFrom, Bool.and_eq_true, decide_eq_true_eq]
        exact ⟨⟨hk, hk2⟩, ih (k + 1) (by omega) hr⟩

/-- A write keeps the canonical form. -/
theorem Memory.wf_write (mem : Memory) (a v : Byte) (h : mem.wf = true) : (mem.write a v).wf = true :=
  Memory.wfFrom_insertCell mem 0 a.toNat v a.isLt (Nat.zero_le _) h

/-- Placing bytes keeps the canonical form. -/
theorem Memory.wf_place (mem : Memory) (a : Byte) (vs : List Byte) (h : mem.wf = true) :
    (mem.place a vs).wf = true := by
  induction vs generalizing mem a with
  | nil => exact h
  | cons v vs ih => exact ih _ _ (Memory.wfFrom_insertCell mem 0 a.toNat v a.isLt (Nat.zero_le _) h)

theorem Memory.find_cellsFrom (f : Byte → Byte) (n lo a : Nat) :
    (Memory.cellsFrom f lo n).find a =
      if lo ≤ a ∧ a < lo + n then some (f (BitVec.ofNat 8 a)) else none := by
  induction n generalizing lo with
  | zero =>
    rw [if_neg (by omega)]
    rfl
  | succ n ih =>
    simp only [Memory.cellsFrom, Memory.find, ih]
    by_cases h : a = lo
    · subst h
      rw [if_pos rfl, if_pos (by omega)]
    · rw [if_neg h]
      exact if_congr (by omega) rfl rfl

theorem Memory.wfFrom_cellsFrom (f : Byte → Byte) (n lo : Nat) (h : lo + n ≤ 256) :
    Memory.wfFrom lo (Memory.cellsFrom f lo n) = true := by
  induction n generalizing lo with
  | zero => rfl
  | succ n ih =>
    simp only [Memory.cellsFrom, Memory.wfFrom, Bool.and_eq_true, decide_eq_true_eq]
    exact ⟨⟨Nat.le_refl _, by omega⟩, ih (lo + 1) (by omega)⟩

/-- What any address reads as after a RESET during a run (70_reset_and_hazards.md R351; log 14). -/
theorem Memory.read_afterReset (mem image : Memory) (draw : Nat) (a : Byte) :
    (mem.afterReset image draw).read a = mem.byteAfterReset image draw a := by
  have ha : 0 ≤ a.toNat ∧ a.toNat < 0 + 256 := ⟨Nat.zero_le _, by omega⟩
  rw [Memory.read, Memory.afterReset, Memory.find_cellsFrom, if_pos ha, Option.getD_some,
    BitVec.ofNat_toNat, BitVec.setWidth_eq]

/-- An address of the launch image holds the byte of the image or what it held before. -/
theorem Memory.read_afterReset_image (mem image : Memory) (draw : Nat) {a v : Byte}
    (h : image.find a.toNat = some v) :
    (mem.afterReset image draw).read a = v ∨ (mem.afterReset image draw).read a = mem.read a := by
  rw [Memory.read_afterReset, Memory.byteAfterReset, h]
  cases Config.resetKeeps draw a
  · exact .inl rfl
  · exact .inr rfl

/-- What a RESET leaves in memory has the canonical form. -/
theorem Memory.wf_afterReset (mem image : Memory) (draw : Nat) :
    (mem.afterReset image draw).wf = true :=
  Memory.wfFrom_cellsFrom _ 256 0 (Nat.le_refl _)

theorem Memory.find_of_lt_wfFrom (mem : Memory) (lo a : Nat) (h : Memory.wfFrom lo mem = true)
    (ha : a < lo) : mem.find a = none := by
  induction mem generalizing lo with
  | nil => rfl
  | cons c rest ih =>
    obtain ⟨k, w⟩ := c
    simp only [Memory.wfFrom, Bool.and_eq_true, decide_eq_true_eq] at h
    have hne : a ≠ k := by omega
    simp only [Memory.find, if_neg hne]
    exact ih (k + 1) h.2 (by omega)

theorem Memory.wfFrom_mono (mem : Memory) {lo hi : Nat} (hle : lo ≤ hi)
    (h : Memory.wfFrom hi mem = true) : Memory.wfFrom lo mem = true := by
  cases mem with
  | nil => rfl
  | cons c rest =>
    obtain ⟨k, w⟩ := c
    simp only [Memory.wfFrom, Bool.and_eq_true, decide_eq_true_eq] at h ⊢
    exact ⟨⟨by omega, h.1.2⟩, h.2⟩

/-- Two memories in canonical form that list the same bytes are the same data. -/
theorem Memory.eq_of_find (m1 m2 : Memory) (lo : Nat) (h1 : Memory.wfFrom lo m1 = true)
    (h2 : Memory.wfFrom lo m2 = true) (h : ∀ a, m1.find a = m2.find a) : m1 = m2 := by
  induction m1 generalizing m2 lo with
  | nil =>
    cases m2 with
    | nil => rfl
    | cons c rest =>
      obtain ⟨k, w⟩ := c
      have := h k
      simp [Memory.find] at this
  | cons c rest ih =>
    obtain ⟨k, w⟩ := c
    cases m2 with
    | nil =>
      have := h k
      simp [Memory.find] at this
    | cons c2 rest2 =>
      obtain ⟨k2, w2⟩ := c2
      simp only [Memory.wfFrom, Bool.and_eq_true, decide_eq_true_eq] at h1 h2
      have hk : k = k2 := by
        rcases Nat.lt_trichotomy k k2 with hlt | heq | hgt
        · have hk1 := h k
          have hne : k ≠ k2 := by omega
          simp only [Memory.find, if_pos, if_neg hne] at hk1
          rw [Memory.find_of_lt_wfFrom rest2 (k2 + 1) k h2.2 (by omega)] at hk1
          cases hk1
        · exact heq
        · have hk1 := h k2
          have hne : k2 ≠ k := by omega
          simp only [Memory.find, if_pos, if_neg hne] at hk1
          rw [Memory.find_of_lt_wfFrom rest (k + 1) k2 h1.2 (by omega)] at hk1
          cases hk1
      subst hk
      have hw : w = w2 := by
        have := h k
        simpa [Memory.find] using this
      subst hw
      have hrest : rest = rest2 := by
        refine ih rest2 (k + 1) h1.2 h2.2 fun a => ?_
        by_cases hak : a = k
        · subst hak
          rw [Memory.find_of_lt_wfFrom rest (a + 1) a h1.2 (by omega),
            Memory.find_of_lt_wfFrom rest2 (a + 1) a h2.2 (by omega)]
        · have := h a
          simpa [Memory.find, hak] using this
      rw [hrest]

end Sys2Proof.Machine
end

