-- ==== Sys2Proof/Laws/State.lean ====
section
/-!
SUPPORT. For each update of the state, one lemma per field, and the value it answers where it answers
one; so that no proof unfolds a record update.
-/

namespace Sys2Proof.Machine

@[simp] theorem State.reg_a (m : State) : m.reg .a = m.a := rfl
@[simp] theorem State.reg_b (m : State) : m.reg .b = m.b := rfl
@[simp] theorem State.reg_x (m : State) : m.reg .x = m.x := rfl
@[simp] theorem State.reg_s (m : State) : m.reg .s = m.s := rfl
@[simp] theorem State.setReg_a_a (m : State) (v : Byte) : (m.setReg .a v).a = v := rfl
@[simp] theorem State.setReg_b_a (m : State) (v : Byte) : (m.setReg .b v).a = m.a := rfl
@[simp] theorem State.setReg_x_a (m : State) (v : Byte) : (m.setReg .x v).a = m.a := rfl
@[simp] theorem State.setReg_s_a (m : State) (v : Byte) : (m.setReg .s v).a = m.a := rfl
@[simp] theorem State.setReg_a_b (m : State) (v : Byte) : (m.setReg .a v).b = m.b := rfl
@[simp] theorem State.setReg_b_b (m : State) (v : Byte) : (m.setReg .b v).b = v := rfl
@[simp] theorem State.setReg_x_b (m : State) (v : Byte) : (m.setReg .x v).b = m.b := rfl
@[simp] theorem State.setReg_s_b (m : State) (v : Byte) : (m.setReg .s v).b = m.b := rfl
@[simp] theorem State.setReg_a_x (m : State) (v : Byte) : (m.setReg .a v).x = m.x := rfl
@[simp] theorem State.setReg_b_x (m : State) (v : Byte) : (m.setReg .b v).x = m.x := rfl
@[simp] theorem State.setReg_x_x (m : State) (v : Byte) : (m.setReg .x v).x = v := rfl
@[simp] theorem State.setReg_s_x (m : State) (v : Byte) : (m.setReg .s v).x = m.x := rfl
@[simp] theorem State.setReg_a_s (m : State) (v : Byte) : (m.setReg .a v).s = m.s := rfl
@[simp] theorem State.setReg_b_s (m : State) (v : Byte) : (m.setReg .b v).s = m.s := rfl
@[simp] theorem State.setReg_x_s (m : State) (v : Byte) : (m.setReg .x v).s = m.s := rfl
@[simp] theorem State.setReg_s_s (m : State) (v : Byte) : (m.setReg .s v).s = v := rfl
@[simp] theorem State.setReg_pc (m : State) (r : Reg) (v : Byte) :
    (m.setReg r v).pc = m.pc := by cases r <;> rfl
@[simp] theorem State.setReg_cc (m : State) (r : Reg) (v : Byte) :
    (m.setReg r v).cc = m.cc := by cases r <;> rfl
@[simp] theorem State.setReg_mem (m : State) (r : Reg) (v : Byte) :
    (m.setReg r v).mem = m.mem := by cases r <;> rfl
@[simp] theorem State.setReg_image (m : State) (r : Reg) (v : Byte) :
    (m.setReg r v).image = m.image := by cases r <;> rfl
@[simp] theorem State.setReg_ma (m : State) (r : Reg) (v : Byte) :
    (m.setReg r v).ma = m.ma := by cases r <;> rfl
@[simp] theorem State.setReg_draws (m : State) (r : Reg) (v : Byte) :
    (m.setReg r v).draws = m.draws := by cases r <;> rfl
@[simp] theorem State.setReg_inputs (m : State) (r : Reg) (v : Byte) :
    (m.setReg r v).inputs = m.inputs := by cases r <;> rfl

@[simp] theorem State.load_value (m : State) (adr : Byte) : (m.load adr).1 = m.mem.read adr := rfl
@[simp] theorem State.load_a (m : State) (adr : Byte) : (m.load adr).2.a = m.a := rfl
@[simp] theorem State.load_b (m : State) (adr : Byte) : (m.load adr).2.b = m.b := rfl
@[simp] theorem State.load_x (m : State) (adr : Byte) : (m.load adr).2.x = m.x := rfl
@[simp] theorem State.load_s (m : State) (adr : Byte) : (m.load adr).2.s = m.s := rfl
@[simp] theorem State.load_pc (m : State) (adr : Byte) : (m.load adr).2.pc = m.pc := rfl
@[simp] theorem State.load_cc (m : State) (adr : Byte) : (m.load adr).2.cc = m.cc := rfl
@[simp] theorem State.load_mem (m : State) (adr : Byte) : (m.load adr).2.mem = m.mem := rfl
@[simp] theorem State.load_image (m : State) (adr : Byte) : (m.load adr).2.image = m.image := rfl
@[simp] theorem State.load_ma (m : State) (adr : Byte) : (m.load adr).2.ma = adr := rfl
@[simp] theorem State.load_draws (m : State) (adr : Byte) : (m.load adr).2.draws = m.draws := rfl
@[simp] theorem State.load_inputs (m : State) (adr : Byte) :
    (m.load adr).2.inputs = m.inputs := rfl

@[simp] theorem State.store_a (m : State) (adr v : Byte) : (m.store adr v).a = m.a := rfl
@[simp] theorem State.store_b (m : State) (adr v : Byte) : (m.store adr v).b = m.b := rfl
@[simp] theorem State.store_x (m : State) (adr v : Byte) : (m.store adr v).x = m.x := rfl
@[simp] theorem State.store_s (m : State) (adr v : Byte) : (m.store adr v).s = m.s := rfl
@[simp] theorem State.store_pc (m : State) (adr v : Byte) : (m.store adr v).pc = m.pc := rfl
@[simp] theorem State.store_cc (m : State) (adr v : Byte) : (m.store adr v).cc = m.cc := rfl
@[simp] theorem State.store_mem (m : State) (adr v : Byte) :
    (m.store adr v).mem = m.mem.write adr v := rfl
@[simp] theorem State.store_image (m : State) (adr v : Byte) :
    (m.store adr v).image = m.image := rfl
@[simp] theorem State.store_ma (m : State) (adr v : Byte) : (m.store adr v).ma = adr := rfl
@[simp] theorem State.store_draws (m : State) (adr v : Byte) :
    (m.store adr v).draws = m.draws := rfl
@[simp] theorem State.store_inputs (m : State) (adr v : Byte) :
    (m.store adr v).inputs = m.inputs := rfl

@[simp] theorem State.push_a (m : State) (v : Byte) : (m.push v).a = m.a := rfl
@[simp] theorem State.push_b (m : State) (v : Byte) : (m.push v).b = m.b := rfl
@[simp] theorem State.push_x (m : State) (v : Byte) : (m.push v).x = m.x := rfl
@[simp] theorem State.push_s (m : State) (v : Byte) : (m.push v).s = m.s - 1 := rfl
@[simp] theorem State.push_pc (m : State) (v : Byte) : (m.push v).pc = m.pc := rfl
@[simp] theorem State.push_cc (m : State) (v : Byte) : (m.push v).cc = m.cc := rfl
@[simp] theorem State.push_mem (m : State) (v : Byte) :
    (m.push v).mem = m.mem.write (m.s - 1) v := rfl
@[simp] theorem State.push_image (m : State) (v : Byte) : (m.push v).image = m.image := rfl
@[simp] theorem State.push_ma (m : State) (v : Byte) : (m.push v).ma = m.s - 1 := rfl
@[simp] theorem State.push_draws (m : State) (v : Byte) : (m.push v).draws = m.draws := rfl
@[simp] theorem State.push_inputs (m : State) (v : Byte) : (m.push v).inputs = m.inputs := rfl

@[simp] theorem State.pull_value (m : State) : m.pull.1 = m.mem.read m.s := rfl
@[simp] theorem State.pull_a (m : State) : m.pull.2.a = m.a := rfl
@[simp] theorem State.pull_b (m : State) : m.pull.2.b = m.b := rfl
@[simp] theorem State.pull_x (m : State) : m.pull.2.x = m.x := rfl
@[simp] theorem State.pull_s (m : State) : m.pull.2.s = m.s + 1 := rfl
@[simp] theorem State.pull_pc (m : State) : m.pull.2.pc = m.pc := rfl
@[simp] theorem State.pull_cc (m : State) : m.pull.2.cc = m.cc := rfl
@[simp] theorem State.pull_mem (m : State) : m.pull.2.mem = m.mem := rfl
@[simp] theorem State.pull_image (m : State) : m.pull.2.image = m.image := rfl
@[simp] theorem State.pull_ma (m : State) : m.pull.2.ma = m.s := rfl
@[simp] theorem State.pull_draws (m : State) : m.pull.2.draws = m.draws := rfl
@[simp] theorem State.pull_inputs (m : State) : m.pull.2.inputs = m.inputs := rfl

@[simp] theorem State.jump_a (m : State) (target : Byte) : (m.jump target).a = m.a := rfl
@[simp] theorem State.jump_b (m : State) (target : Byte) : (m.jump target).b = m.b := rfl
@[simp] theorem State.jump_x (m : State) (target : Byte) : (m.jump target).x = m.x := rfl
@[simp] theorem State.jump_s (m : State) (target : Byte) : (m.jump target).s = m.s := rfl
@[simp] theorem State.jump_pc (m : State) (target : Byte) : (m.jump target).pc = target := rfl
@[simp] theorem State.jump_cc (m : State) (target : Byte) : (m.jump target).cc = m.cc := rfl
@[simp] theorem State.jump_mem (m : State) (target : Byte) : (m.jump target).mem = m.mem := rfl
@[simp] theorem State.jump_image (m : State) (target : Byte) :
    (m.jump target).image = m.image := rfl
@[simp] theorem State.jump_ma (m : State) (target : Byte) : (m.jump target).ma = m.ma := rfl
@[simp] theorem State.jump_draws (m : State) (target : Byte) :
    (m.jump target).draws = m.draws := rfl
@[simp] theorem State.jump_inputs (m : State) (target : Byte) :
    (m.jump target).inputs = m.inputs := rfl

@[simp] theorem State.drawFlag_value (m : State) : m.drawFlag.1 = Config.undefFlag m.draws := rfl
@[simp] theorem State.drawFlag_a (m : State) : m.drawFlag.2.a = m.a := rfl
@[simp] theorem State.drawFlag_b (m : State) : m.drawFlag.2.b = m.b := rfl
@[simp] theorem State.drawFlag_x (m : State) : m.drawFlag.2.x = m.x := rfl
@[simp] theorem State.drawFlag_s (m : State) : m.drawFlag.2.s = m.s := rfl
@[simp] theorem State.drawFlag_pc (m : State) : m.drawFlag.2.pc = m.pc := rfl
@[simp] theorem State.drawFlag_cc (m : State) : m.drawFlag.2.cc = m.cc := rfl
@[simp] theorem State.drawFlag_mem (m : State) : m.drawFlag.2.mem = m.mem := rfl
@[simp] theorem State.drawFlag_image (m : State) : m.drawFlag.2.image = m.image := rfl
@[simp] theorem State.drawFlag_ma (m : State) : m.drawFlag.2.ma = m.ma := rfl
@[simp] theorem State.drawFlag_draws (m : State) : m.drawFlag.2.draws = m.draws + 1 := rfl
@[simp] theorem State.drawFlag_inputs (m : State) : m.drawFlag.2.inputs = m.inputs := rfl

@[simp] theorem State.readCC_value (m : State) :
    m.readCC.1 = ccToByte m.cc (Config.ccUnusedRead m.draws) := rfl
@[simp] theorem State.readCC_a (m : State) : m.readCC.2.a = m.a := rfl
@[simp] theorem State.readCC_b (m : State) : m.readCC.2.b = m.b := rfl
@[simp] theorem State.readCC_x (m : State) : m.readCC.2.x = m.x := rfl
@[simp] theorem State.readCC_s (m : State) : m.readCC.2.s = m.s := rfl
@[simp] theorem State.readCC_pc (m : State) : m.readCC.2.pc = m.pc := rfl
@[simp] theorem State.readCC_cc (m : State) : m.readCC.2.cc = m.cc := rfl
@[simp] theorem State.readCC_mem (m : State) : m.readCC.2.mem = m.mem := rfl
@[simp] theorem State.readCC_image (m : State) : m.readCC.2.image = m.image := rfl
@[simp] theorem State.readCC_ma (m : State) : m.readCC.2.ma = m.ma := rfl
@[simp] theorem State.readCC_draws (m : State) : m.readCC.2.draws = m.draws + 1 := rfl
@[simp] theorem State.readCC_inputs (m : State) : m.readCC.2.inputs = m.inputs := rfl

@[simp] theorem State.writeCC_a (m : State) (v : Byte) : (m.writeCC v).a = m.a := rfl
@[simp] theorem State.writeCC_b (m : State) (v : Byte) : (m.writeCC v).b = m.b := rfl
@[simp] theorem State.writeCC_x (m : State) (v : Byte) : (m.writeCC v).x = m.x := rfl
@[simp] theorem State.writeCC_s (m : State) (v : Byte) : (m.writeCC v).s = m.s := rfl
@[simp] theorem State.writeCC_pc (m : State) (v : Byte) : (m.writeCC v).pc = m.pc := rfl
@[simp] theorem State.writeCC_cc (m : State) (v : Byte) : (m.writeCC v).cc = byteToCC v := rfl
@[simp] theorem State.writeCC_mem (m : State) (v : Byte) : (m.writeCC v).mem = m.mem := rfl
@[simp] theorem State.writeCC_image (m : State) (v : Byte) : (m.writeCC v).image = m.image := rfl
@[simp] theorem State.writeCC_ma (m : State) (v : Byte) : (m.writeCC v).ma = m.ma := rfl
@[simp] theorem State.writeCC_draws (m : State) (v : Byte) : (m.writeCC v).draws = m.draws := rfl
@[simp] theorem State.writeCC_inputs (m : State) (v : Byte) :
    (m.writeCC v).inputs = m.inputs := rfl

@[simp] theorem State.setFlags_a (m : State) (f : CC) : (m.setFlags f).a = m.a := rfl
@[simp] theorem State.setFlags_b (m : State) (f : CC) : (m.setFlags f).b = m.b := rfl
@[simp] theorem State.setFlags_x (m : State) (f : CC) : (m.setFlags f).x = m.x := rfl
@[simp] theorem State.setFlags_s (m : State) (f : CC) : (m.setFlags f).s = m.s := rfl
@[simp] theorem State.setFlags_pc (m : State) (f : CC) : (m.setFlags f).pc = m.pc := rfl
@[simp] theorem State.setFlags_cc (m : State) (f : CC) : (m.setFlags f).cc = f := rfl
@[simp] theorem State.setFlags_mem (m : State) (f : CC) : (m.setFlags f).mem = m.mem := rfl
@[simp] theorem State.setFlags_image (m : State) (f : CC) : (m.setFlags f).image = m.image := rfl
@[simp] theorem State.setFlags_ma (m : State) (f : CC) : (m.setFlags f).ma = m.ma := rfl
@[simp] theorem State.setFlags_draws (m : State) (f : CC) : (m.setFlags f).draws = m.draws := rfl
@[simp] theorem State.setFlags_inputs (m : State) (f : CC) :
    (m.setFlags f).inputs = m.inputs := rfl

@[simp] theorem State.flagsDrawH_a (m : State) (r : Byte) (v c : Bool) :
    (m.flagsDrawH r v c).a = m.a := rfl
@[simp] theorem State.flagsDrawH_b (m : State) (r : Byte) (v c : Bool) :
    (m.flagsDrawH r v c).b = m.b := rfl
@[simp] theorem State.flagsDrawH_x (m : State) (r : Byte) (v c : Bool) :
    (m.flagsDrawH r v c).x = m.x := rfl
@[simp] theorem State.flagsDrawH_s (m : State) (r : Byte) (v c : Bool) :
    (m.flagsDrawH r v c).s = m.s := rfl
@[simp] theorem State.flagsDrawH_pc (m : State) (r : Byte) (v c : Bool) :
    (m.flagsDrawH r v c).pc = m.pc := rfl
@[simp] theorem State.flagsDrawH_cc (m : State) (r : Byte) (v c : Bool) :
    (m.flagsDrawH r v c).cc = ⟨Config.undefFlag m.draws, flagN r, flagZ r, v, c⟩ := rfl
@[simp] theorem State.flagsDrawH_mem (m : State) (r : Byte) (v c : Bool) :
    (m.flagsDrawH r v c).mem = m.mem := rfl
@[simp] theorem State.flagsDrawH_image (m : State) (r : Byte) (v c : Bool) :
    (m.flagsDrawH r v c).image = m.image := rfl
@[simp] theorem State.flagsDrawH_ma (m : State) (r : Byte) (v c : Bool) :
    (m.flagsDrawH r v c).ma = m.ma := rfl
@[simp] theorem State.flagsDrawH_draws (m : State) (r : Byte) (v c : Bool) :
    (m.flagsDrawH r v c).draws = m.draws + 1 := rfl
@[simp] theorem State.flagsDrawH_inputs (m : State) (r : Byte) (v c : Bool) :
    (m.flagsDrawH r v c).inputs = m.inputs := rfl

@[simp] theorem State.flagsDrawHC_a (m : State) (r : Byte) : (m.flagsDrawHC r).a = m.a := rfl
@[simp] theorem State.flagsDrawHC_b (m : State) (r : Byte) : (m.flagsDrawHC r).b = m.b := rfl
@[simp] theorem State.flagsDrawHC_x (m : State) (r : Byte) : (m.flagsDrawHC r).x = m.x := rfl
@[simp] theorem State.flagsDrawHC_s (m : State) (r : Byte) : (m.flagsDrawHC r).s = m.s := rfl
@[simp] theorem State.flagsDrawHC_pc (m : State) (r : Byte) : (m.flagsDrawHC r).pc = m.pc := rfl
@[simp] theorem State.flagsDrawHC_cc (m : State) (r : Byte) :
    (m.flagsDrawHC r).cc = ⟨Config.undefFlag m.draws, flagN r, flagZ r, false, Config.undefFlag (m.draws + 1)⟩ := rfl
@[simp] theorem State.flagsDrawHC_mem (m : State) (r : Byte) :
    (m.flagsDrawHC r).mem = m.mem := rfl
@[simp] theorem State.flagsDrawHC_image (m : State) (r : Byte) :
    (m.flagsDrawHC r).image = m.image := rfl
@[simp] theorem State.flagsDrawHC_ma (m : State) (r : Byte) : (m.flagsDrawHC r).ma = m.ma := rfl
@[simp] theorem State.flagsDrawHC_draws (m : State) (r : Byte) :
    (m.flagsDrawHC r).draws = m.draws + 2 := rfl
@[simp] theorem State.flagsDrawHC_inputs (m : State) (r : Byte) :
    (m.flagsDrawHC r).inputs = m.inputs := rfl

@[simp] theorem State.flagsClear_a (m : State) : m.flagsClear.a = m.a := rfl
@[simp] theorem State.flagsClear_b (m : State) : m.flagsClear.b = m.b := rfl
@[simp] theorem State.flagsClear_x (m : State) : m.flagsClear.x = m.x := rfl
@[simp] theorem State.flagsClear_s (m : State) : m.flagsClear.s = m.s := rfl
@[simp] theorem State.flagsClear_pc (m : State) : m.flagsClear.pc = m.pc := rfl
@[simp] theorem State.flagsClear_cc (m : State) :
    m.flagsClear.cc = ⟨false, false, true, Config.undefFlag m.draws, false⟩ := rfl
@[simp] theorem State.flagsClear_mem (m : State) : m.flagsClear.mem = m.mem := rfl
@[simp] theorem State.flagsClear_image (m : State) : m.flagsClear.image = m.image := rfl
@[simp] theorem State.flagsClear_ma (m : State) : m.flagsClear.ma = m.ma := rfl
@[simp] theorem State.flagsClear_draws (m : State) : m.flagsClear.draws = m.draws + 1 := rfl
@[simp] theorem State.flagsClear_inputs (m : State) : m.flagsClear.inputs = m.inputs := rfl

@[simp] theorem State.fetchByte_value (m : State) : m.fetchByte.1 = m.mem.read m.pc := rfl
@[simp] theorem State.fetchByte_a (m : State) : m.fetchByte.2.a = m.a := rfl
@[simp] theorem State.fetchByte_b (m : State) : m.fetchByte.2.b = m.b := rfl
@[simp] theorem State.fetchByte_x (m : State) : m.fetchByte.2.x = m.x := rfl
@[simp] theorem State.fetchByte_s (m : State) : m.fetchByte.2.s = m.s := rfl
@[simp] theorem State.fetchByte_pc (m : State) : m.fetchByte.2.pc = m.pc + 1 := rfl
@[simp] theorem State.fetchByte_cc (m : State) : m.fetchByte.2.cc = m.cc := rfl
@[simp] theorem State.fetchByte_mem (m : State) : m.fetchByte.2.mem = m.mem := rfl
@[simp] theorem State.fetchByte_image (m : State) : m.fetchByte.2.image = m.image := rfl
@[simp] theorem State.fetchByte_ma (m : State) : m.fetchByte.2.ma = m.pc := rfl
@[simp] theorem State.fetchByte_draws (m : State) : m.fetchByte.2.draws = m.draws := rfl
@[simp] theorem State.fetchByte_inputs (m : State) : m.fetchByte.2.inputs = m.inputs := rfl

end Sys2Proof.Machine
end

