-- ==== Sys2Proof/Laws/Ops.lean ====
section
/-!
SUPPORT. For each shared operation, once, the state it answers; and that every shared operation keeps
the canonical form of memory.
-/

namespace Sys2Proof.Machine

theorem State.transfer_eq (m : State) (src dst : Reg) :
    m.transfer src dst = m.setReg dst (m.reg src) := rfl

theorem State.exchange_eq (m : State) (r q : Reg) :
    m.exchange r q = (m.setReg r (m.reg q)).setReg q (m.reg r) := rfl

theorem State.exchangeCC_eq (m : State) (r : Reg) :
    m.exchangeCC r =
      ({ m with cc := byteToCC (m.reg r), draws := m.draws + 1 }).setReg r
        (ccToByte m.cc (Config.ccUnusedRead m.draws)) := by
  cases r <;> rfl

theorem State.loadReg_data (m : State) (r : Reg) (data : Byte) :
    m.loadReg r (.data data) = m.setReg r data := rfl

theorem State.loadReg_adr (m : State) (r : Reg) (adr : Byte) :
    m.loadReg r (.adr adr) = ({ m with ma := adr }).setReg r (m.mem.read adr) := rfl

theorem State.storeReg_eq (m : State) (r : Reg) (adr : Byte) :
    m.storeReg r adr = { m with mem := m.mem.write adr (m.reg r), ma := adr } := rfl

theorem State.logicReg_data (m : State) (op : Byte → Byte → Byte) (r : Reg) (data : Byte) :
    m.logicReg op r (.data data) =
      (m.setReg r (op (m.reg r) data)).flagsDrawH (op (m.reg r) data) false false := rfl

theorem State.logicReg_adr (m : State) (op : Byte → Byte → Byte) (r : Reg) (adr : Byte) :
    m.logicReg op r (.adr adr) =
      (({ m with ma := adr }).setReg r (op (m.reg r) (m.mem.read adr))).flagsDrawH
        (op (m.reg r) (m.mem.read adr)) false false := by
  cases r <;> rfl

theorem State.bitTest_data (m : State) (r : Reg) (data : Byte) :
    m.bitTest r (.data data) = m.flagsDrawH (m.reg r &&& data) false false := rfl

theorem State.bitTest_adr (m : State) (r : Reg) (adr : Byte) :
    m.bitTest r (.adr adr) =
      ({ m with ma := adr }).flagsDrawH (m.reg r &&& m.mem.read adr) false false := by
  cases r <;> rfl

theorem State.compareReg_data (m : State) (r : Reg) (data : Byte) :
    m.compareReg r (.data data) =
      m.flagsDrawH (m.reg r - data) (sub8 (m.reg r) data).v (sub8 (m.reg r) data).c := rfl

theorem State.compareReg_adr (m : State) (r : Reg) (adr : Byte) :
    m.compareReg r (.adr adr) =
      ({ m with ma := adr }).flagsDrawH (m.reg r - m.mem.read adr)
        (sub8 (m.reg r) (m.mem.read adr)).v (sub8 (m.reg r) (m.mem.read adr)).c := by
  cases r <;> rfl

theorem State.inPlace_reg (m : State) (r : Reg) (f : Byte → ArithResult) :
    m.inPlace (.reg r) f =
      (m.setReg r (f (m.reg r)).r).flagsDrawH (f (m.reg r)).r (f (m.reg r)).v (f (m.reg r)).c := rfl

theorem State.inPlace_adr (m : State) (adr : Byte) (f : Byte → ArithResult) :
    m.inPlace (.adr adr) f =
      (m.store adr (f (m.mem.read adr)).r).flagsDrawH (f (m.mem.read adr)).r (f (m.mem.read adr)).v
        (f (m.mem.read adr)).c := rfl

theorem State.complement_reg (m : State) (r : Reg) :
    m.complement (.reg r) = (m.setReg r (~~~m.reg r)).flagsDrawHC (~~~m.reg r) := rfl

theorem State.complement_adr (m : State) (adr : Byte) :
    m.complement (.adr adr) =
      (m.store adr (~~~m.mem.read adr)).flagsDrawHC (~~~m.mem.read adr) := rfl

theorem State.clear_reg (m : State) (r : Reg) : m.clear (.reg r) = (m.setReg r 0).flagsClear := rfl

theorem State.clear_adr (m : State) (adr : Byte) : m.clear (.adr adr) = (m.store adr 0).flagsClear :=
  rfl

theorem State.testPlace_reg (m : State) (r : Reg) :
    m.testPlace (.reg r) = m.flagsDrawH (m.reg r) false false := rfl

theorem State.testPlace_adr (m : State) (adr : Byte) :
    m.testPlace (.adr adr) = ({ m with ma := adr }).flagsDrawH (m.mem.read adr) false false := rfl

/-- The address an indexed form accesses (48_indexed_transfer.md R290). -/
def indexTarget (m : State) : IndexForm → Byte
  | .x => m.x
  | .xInc => m.x
  | .decX => m.x - 1
  | .nX n => n + m.x
  | .aX => m.a + m.x
  | .bX => m.b + m.x

/-- X after an indexed form (48_indexed_transfer.md R290). -/
def indexLeft (m : State) : IndexForm → Byte
  | .x => m.x
  | .xInc => m.x + 1
  | .decX => m.x - 1
  | .nX _ => m.x
  | .aX => m.x
  | .bX => m.x

theorem State.loadIndexed_a (m : State) (form : IndexForm) :
    m.loadIndexed .a form =
      { m with a := m.mem.read (indexTarget m form), x := indexLeft m form, ma := indexTarget m form } := by
  cases form <;> rfl

theorem State.loadIndexed_b (m : State) (form : IndexForm) :
    m.loadIndexed .b form =
      { m with b := m.mem.read (indexTarget m form), x := indexLeft m form, ma := indexTarget m form } := by
  cases form <;> rfl

theorem State.storeIndexed_a (m : State) (form : IndexForm) :
    m.storeIndexed .a form =
      { m with
        mem := m.mem.write (indexTarget m form) m.a
        x := indexLeft m form
        ma := indexTarget m form } := by
  cases form <;> rfl

theorem State.storeIndexed_b (m : State) (form : IndexForm) :
    m.storeIndexed .b form =
      { m with
        mem := m.mem.write (indexTarget m form) m.b
        x := indexLeft m form
        ma := indexTarget m form } := by
  cases form <;> rfl

theorem State.branchIf_eq (m : State) (taken : Bool) (offs : Byte) :
    m.branchIf taken offs = { m with pc := if taken then m.pc + offs else m.pc } := by
  cases taken <;> rfl

@[simp] theorem State.takeReset_mem (m : State) :
    m.takeReset.mem = m.mem.afterReset m.image (m.draws + 6) := rfl

@[simp] theorem State.takeReset_pc (m : State) : m.takeReset.pc = Config.resetPc := rfl

@[simp] theorem State.takeReset_image (m : State) : m.takeReset.image = m.image := rfl

@[simp] theorem State.takeReset_inputs (m : State) : m.takeReset.inputs = m.inputs := rfl

theorem State.takeReset_wf (m : State) : m.takeReset.mem.wf = true :=
  Memory.wf_afterReset m.mem m.image (m.draws + 6)

theorem State.cutIrqByReset_wf (m : State) (pushes : Nat) : (m.cutIrqByReset pushes).mem.wf = true :=
  State.takeReset_wf _

/-- The memory an interrupt entry leaves: five writes downward from S (60_exceptions.md R325). -/
theorem State.takeIrq_mem (m : State) :
    m.takeIrq.mem =
      ((((m.mem.write (m.s - 1) m.pc).write (m.s - 1 - 1) m.x).write (m.s - 1 - 1 - 1)
        (ccToByte m.cc (Config.ccUnusedRead m.draws))).write (m.s - 1 - 1 - 1 - 1) m.b).write
        (m.s - 1 - 1 - 1 - 1 - 1) m.a := rfl

/-- Everything an interrupt entry leaves besides memory (60_exceptions.md R325, R326). -/
theorem State.takeIrq_eq (m : State) :
    m.takeIrq =
      { m with
        s := m.s - 1 - 1 - 1 - 1 - 1
        pc := Config.irqPc m.takeIrq.mem.read
        mem := m.takeIrq.mem
        ma := m.s - 1 - 1 - 1 - 1 - 1
        draws := m.draws + 1 } := rfl

/-- Everything a return from interrupt leaves (45_jump.md R261). -/
theorem State.returnFromIrq_eq (m : State) :
    m.returnFromIrq =
      { m with
        a := m.mem.read m.s
        b := m.mem.read (m.s + 1)
        cc := byteToCC (m.mem.read (m.s + 1 + 1))
        x := m.mem.read (m.s + 1 + 1 + 1)
        pc := m.mem.read (m.s + 1 + 1 + 1 + 1)
        s := m.s + 1 + 1 + 1 + 1 + 1
        ma := m.s + 1 + 1 + 1 + 1 } := rfl

/-- Pushes change nothing of the launch image. -/
@[simp] theorem State.pushAll_image (vs : List Byte) (m : State) :
    (State.pushAll vs m).image = m.image := by
  induction vs generalizing m with
  | nil => rfl
  | cons v vs ih => exact ih _

/-- Pushes use up no event of the environment. -/
@[simp] theorem State.pushAll_inputs (vs : List Byte) (m : State) :
    (State.pushAll vs m).inputs = m.inputs := by
  induction vs generalizing m with
  | nil => rfl
  | cons v vs ih => exact ih _

theorem State.pushAll_wf (vs : List Byte) (m : State) (h : m.mem.wf = true) :
    (State.pushAll vs m).mem.wf = true := by
  induction vs generalizing m with
  | nil => exact h
  | cons v vs ih => exact ih _ (by simpa using Memory.wf_write m.mem (m.s - 1) v h)

theorem State.store_wf (m : State) (adr v : Byte) (h : m.mem.wf = true) :
    (m.store adr v).mem.wf = true := by
  simpa using Memory.wf_write m.mem adr v h

theorem State.writePlace_wf (m : State) (p : Place) (v : Byte) (h : m.mem.wf = true) :
    (m.writePlace p v).mem.wf = true := by
  cases p with
  | reg r => simpa [State.writePlace] using h
  | adr a => exact State.store_wf m a v h

theorem State.takeIrq_wf (m : State) (h : m.mem.wf = true) : m.takeIrq.mem.wf = true := by
  rw [State.takeIrq_mem]
  exact Memory.wf_write _ _ _ (Memory.wf_write _ _ _ (Memory.wf_write _ _ _
    (Memory.wf_write _ _ _ (Memory.wf_write _ _ _ h))))

end Sys2Proof.Machine
end

