-- ==== Sys2Proof/Laws/PerInstr.lean ====
section
/-!
SUPPORT. The family `OpcodeLength` of statements about instructions as syntax, one lemma for each
instruction.
-/

namespace Sys2Proof.Laws.OpcodeLength

/-- The bytes of an instruction are exactly one instruction by the list of two-byte opcodes
(30_encoding.md R91), they are as many as its `#` column says, and the term is well formed. -/
def Statement (i : Instr) : Prop :=
  codeWf (encode i) = true ∧ (encode i).length = i.length ∧ i.wf = true

theorem nop : Statement .nop := ⟨rfl, rfl, rfl⟩
theorem tfrAB : Statement .tfrAB := ⟨rfl, rfl, rfl⟩
theorem tfrBA : Statement .tfrBA := ⟨rfl, rfl, rfl⟩
theorem tfrACC : Statement .tfrACC := ⟨rfl, rfl, rfl⟩
theorem tfrCCA : Statement .tfrCCA := ⟨rfl, rfl, rfl⟩
theorem tfrXS : Statement .tfrXS := ⟨rfl, rfl, rfl⟩
theorem tfrSX : Statement .tfrSX := ⟨rfl, rfl, rfl⟩
theorem exgAB : Statement .exgAB := ⟨rfl, rfl, rfl⟩
theorem exgACC : Statement .exgACC := ⟨rfl, rfl, rfl⟩
theorem exgBCC : Statement .exgBCC := ⟨rfl, rfl, rfl⟩
theorem exgXS : Statement .exgXS := ⟨rfl, rfl, rfl⟩
theorem ldaAdr (adr : Byte) : Statement (.ldaAdr adr) := ⟨rfl, rfl, rfl⟩
theorem ldbAdr (adr : Byte) : Statement (.ldbAdr adr) := ⟨rfl, rfl, rfl⟩
theorem ldxAdr (adr : Byte) : Statement (.ldxAdr adr) := ⟨rfl, rfl, rfl⟩
theorem ldsAdr (adr : Byte) : Statement (.ldsAdr adr) := ⟨rfl, rfl, rfl⟩
theorem ldaImm (data : Byte) : Statement (.ldaImm data) := ⟨rfl, rfl, rfl⟩
theorem ldbImm (data : Byte) : Statement (.ldbImm data) := ⟨rfl, rfl, rfl⟩
theorem ldxImm (data : Byte) : Statement (.ldxImm data) := ⟨rfl, rfl, rfl⟩
theorem ldsImm (data : Byte) : Statement (.ldsImm data) := ⟨rfl, rfl, rfl⟩
theorem staAdr (adr : Byte) : Statement (.staAdr adr) := ⟨rfl, rfl, rfl⟩
theorem stbAdr (adr : Byte) : Statement (.stbAdr adr) := ⟨rfl, rfl, rfl⟩
theorem stxAdr (adr : Byte) : Statement (.stxAdr adr) := ⟨rfl, rfl, rfl⟩
theorem stsAdr (adr : Byte) : Statement (.stsAdr adr) := ⟨rfl, rfl, rfl⟩
theorem andaAdr (adr : Byte) : Statement (.andaAdr adr) := ⟨rfl, rfl, rfl⟩
theorem andbAdr (adr : Byte) : Statement (.andbAdr adr) := ⟨rfl, rfl, rfl⟩
theorem andaImm (data : Byte) : Statement (.andaImm data) := ⟨rfl, rfl, rfl⟩
theorem andbImm (data : Byte) : Statement (.andbImm data) := ⟨rfl, rfl, rfl⟩
theorem oraAdr (adr : Byte) : Statement (.oraAdr adr) := ⟨rfl, rfl, rfl⟩
theorem orbAdr (adr : Byte) : Statement (.orbAdr adr) := ⟨rfl, rfl, rfl⟩
theorem oraImm (data : Byte) : Statement (.oraImm data) := ⟨rfl, rfl, rfl⟩
theorem orbImm (data : Byte) : Statement (.orbImm data) := ⟨rfl, rfl, rfl⟩
theorem eoraAdr (adr : Byte) : Statement (.eoraAdr adr) := ⟨rfl, rfl, rfl⟩
theorem eorbAdr (adr : Byte) : Statement (.eorbAdr adr) := ⟨rfl, rfl, rfl⟩
theorem eoraImm (data : Byte) : Statement (.eoraImm data) := ⟨rfl, rfl, rfl⟩
theorem eorbImm (data : Byte) : Statement (.eorbImm data) := ⟨rfl, rfl, rfl⟩
theorem coma : Statement .coma := ⟨rfl, rfl, rfl⟩
theorem comb : Statement .comb := ⟨rfl, rfl, rfl⟩
theorem comAdr (adr : Byte) : Statement (.comAdr adr) := ⟨rfl, rfl, rfl⟩
theorem andccImm (data : Byte) : Statement (.andccImm data) := ⟨rfl, rfl, rfl⟩
theorem orccImm (data : Byte) : Statement (.orccImm data) := ⟨rfl, rfl, rfl⟩
theorem addaAdr (adr : Byte) : Statement (.addaAdr adr) := ⟨rfl, rfl, rfl⟩
theorem addbAdr (adr : Byte) : Statement (.addbAdr adr) := ⟨rfl, rfl, rfl⟩
theorem addaImm (data : Byte) : Statement (.addaImm data) := ⟨rfl, rfl, rfl⟩
theorem addbImm (data : Byte) : Statement (.addbImm data) := ⟨rfl, rfl, rfl⟩
theorem subaAdr (adr : Byte) : Statement (.subaAdr adr) := ⟨rfl, rfl, rfl⟩
theorem subbAdr (adr : Byte) : Statement (.subbAdr adr) := ⟨rfl, rfl, rfl⟩
theorem subaImm (data : Byte) : Statement (.subaImm data) := ⟨rfl, rfl, rfl⟩
theorem subbImm (data : Byte) : Statement (.subbImm data) := ⟨rfl, rfl, rfl⟩
theorem nega : Statement .nega := ⟨rfl, rfl, rfl⟩
theorem negb : Statement .negb := ⟨rfl, rfl, rfl⟩
theorem negAdr (adr : Byte) : Statement (.negAdr adr) := ⟨rfl, rfl, rfl⟩
theorem asla : Statement .asla := ⟨rfl, rfl, rfl⟩
theorem aslb : Statement .aslb := ⟨rfl, rfl, rfl⟩
theorem aslAdr (adr : Byte) : Statement (.aslAdr adr) := ⟨rfl, rfl, rfl⟩
theorem rola : Statement .rola := ⟨rfl, rfl, rfl⟩
theorem rolb : Statement .rolb := ⟨rfl, rfl, rfl⟩
theorem rolAdr (adr : Byte) : Statement (.rolAdr adr) := ⟨rfl, rfl, rfl⟩
theorem inca : Statement .inca := ⟨rfl, rfl, rfl⟩
theorem incb : Statement .incb := ⟨rfl, rfl, rfl⟩
theorem incAdr (adr : Byte) : Statement (.incAdr adr) := ⟨rfl, rfl, rfl⟩
theorem deca : Statement .deca := ⟨rfl, rfl, rfl⟩
theorem decb : Statement .decb := ⟨rfl, rfl, rfl⟩
theorem decAdr (adr : Byte) : Statement (.decAdr adr) := ⟨rfl, rfl, rfl⟩
theorem clra : Statement .clra := ⟨rfl, rfl, rfl⟩
theorem clrb : Statement .clrb := ⟨rfl, rfl, rfl⟩
theorem clrAdr (adr : Byte) : Statement (.clrAdr adr) := ⟨rfl, rfl, rfl⟩
theorem cmpaAdr (adr : Byte) : Statement (.cmpaAdr adr) := ⟨rfl, rfl, rfl⟩
theorem cmpbAdr (adr : Byte) : Statement (.cmpbAdr adr) := ⟨rfl, rfl, rfl⟩
theorem cmpxAdr (adr : Byte) : Statement (.cmpxAdr adr) := ⟨rfl, rfl, rfl⟩
theorem cmpsAdr (adr : Byte) : Statement (.cmpsAdr adr) := ⟨rfl, rfl, rfl⟩
theorem cmpaImm (data : Byte) : Statement (.cmpaImm data) := ⟨rfl, rfl, rfl⟩
theorem cmpbImm (data : Byte) : Statement (.cmpbImm data) := ⟨rfl, rfl, rfl⟩
theorem cmpxImm (data : Byte) : Statement (.cmpxImm data) := ⟨rfl, rfl, rfl⟩
theorem cmpsImm (data : Byte) : Statement (.cmpsImm data) := ⟨rfl, rfl, rfl⟩
theorem tsta : Statement .tsta := ⟨rfl, rfl, rfl⟩
theorem tstb : Statement .tstb := ⟨rfl, rfl, rfl⟩
theorem tstAdr (adr : Byte) : Statement (.tstAdr adr) := ⟨rfl, rfl, rfl⟩
theorem bitaAdr (adr : Byte) : Statement (.bitaAdr adr) := ⟨rfl, rfl, rfl⟩
theorem bitbAdr (adr : Byte) : Statement (.bitbAdr adr) := ⟨rfl, rfl, rfl⟩
theorem bitaImm (data : Byte) : Statement (.bitaImm data) := ⟨rfl, rfl, rfl⟩
theorem bitbImm (data : Byte) : Statement (.bitbImm data) := ⟨rfl, rfl, rfl⟩
theorem jmpAdr (adr : Byte) : Statement (.jmpAdr adr) := ⟨rfl, rfl, rfl⟩
theorem braOffs (offs : Byte) : Statement (.braOffs offs) := ⟨rfl, rfl, rfl⟩
theorem bmiOffs (offs : Byte) : Statement (.bmiOffs offs) := ⟨rfl, rfl, rfl⟩
theorem bplOffs (offs : Byte) : Statement (.bplOffs offs) := ⟨rfl, rfl, rfl⟩
theorem beqOffs (offs : Byte) : Statement (.beqOffs offs) := ⟨rfl, rfl, rfl⟩
theorem bneOffs (offs : Byte) : Statement (.bneOffs offs) := ⟨rfl, rfl, rfl⟩
theorem bvsOffs (offs : Byte) : Statement (.bvsOffs offs) := ⟨rfl, rfl, rfl⟩
theorem bvcOffs (offs : Byte) : Statement (.bvcOffs offs) := ⟨rfl, rfl, rfl⟩
theorem bcsOffs (offs : Byte) : Statement (.bcsOffs offs) := ⟨rfl, rfl, rfl⟩
theorem bccOffs (offs : Byte) : Statement (.bccOffs offs) := ⟨rfl, rfl, rfl⟩
theorem bhiOffs (offs : Byte) : Statement (.bhiOffs offs) := ⟨rfl, rfl, rfl⟩
theorem blsOffs (offs : Byte) : Statement (.blsOffs offs) := ⟨rfl, rfl, rfl⟩
theorem bgtOffs (offs : Byte) : Statement (.bgtOffs offs) := ⟨rfl, rfl, rfl⟩
theorem bgeOffs (offs : Byte) : Statement (.bgeOffs offs) := ⟨rfl, rfl, rfl⟩
theorem bleOffs (offs : Byte) : Statement (.bleOffs offs) := ⟨rfl, rfl, rfl⟩
theorem bltOffs (offs : Byte) : Statement (.bltOffs offs) := ⟨rfl, rfl, rfl⟩
theorem jsrAdr (adr : Byte) : Statement (.jsrAdr adr) := ⟨rfl, rfl, rfl⟩
theorem rts : Statement .rts := ⟨rfl, rfl, rfl⟩
theorem bsrOffs (offs : Byte) : Statement (.bsrOffs offs) := ⟨rfl, rfl, rfl⟩
theorem rti : Statement .rti := ⟨rfl, rfl, rfl⟩
theorem pshsA : Statement .pshsA := ⟨rfl, rfl, rfl⟩
theorem pshsB : Statement .pshsB := ⟨rfl, rfl, rfl⟩
theorem pshsCC : Statement .pshsCC := ⟨rfl, rfl, rfl⟩
theorem pshsX : Statement .pshsX := ⟨rfl, rfl, rfl⟩
theorem pulsA : Statement .pulsA := ⟨rfl, rfl, rfl⟩
theorem pulsB : Statement .pulsB := ⟨rfl, rfl, rfl⟩
theorem pulsCC : Statement .pulsCC := ⟨rfl, rfl, rfl⟩
theorem pulsX : Statement .pulsX := ⟨rfl, rfl, rfl⟩
theorem leaxDecX : Statement .leaxDecX := ⟨rfl, rfl, rfl⟩
theorem leaxXInc : Statement .leaxXInc := ⟨rfl, rfl, rfl⟩
theorem leaxNX (n : Byte) : Statement (.leaxNX n) := ⟨rfl, rfl, rfl⟩
theorem leaxAX : Statement .leaxAX := ⟨rfl, rfl, rfl⟩
theorem leaxBX : Statement .leaxBX := ⟨rfl, rfl, rfl⟩
theorem ldaX : Statement .ldaX := ⟨rfl, rfl, rfl⟩
theorem ldbX : Statement .ldbX := ⟨rfl, rfl, rfl⟩
theorem ldaXInc : Statement .ldaXInc := ⟨rfl, rfl, rfl⟩
theorem ldbXInc : Statement .ldbXInc := ⟨rfl, rfl, rfl⟩
theorem ldaDecX : Statement .ldaDecX := ⟨rfl, rfl, rfl⟩
theorem ldbDecX : Statement .ldbDecX := ⟨rfl, rfl, rfl⟩
theorem ldaNX (n : Byte) : Statement (.ldaNX n) := ⟨rfl, rfl, rfl⟩
theorem ldbNX (n : Byte) : Statement (.ldbNX n) := ⟨rfl, rfl, rfl⟩
theorem ldaAX : Statement .ldaAX := ⟨rfl, rfl, rfl⟩
theorem ldbAX : Statement .ldbAX := ⟨rfl, rfl, rfl⟩
theorem ldaBX : Statement .ldaBX := ⟨rfl, rfl, rfl⟩
theorem ldbBX : Statement .ldbBX := ⟨rfl, rfl, rfl⟩
theorem staX : Statement .staX := ⟨rfl, rfl, rfl⟩
theorem stbX : Statement .stbX := ⟨rfl, rfl, rfl⟩
theorem staXInc : Statement .staXInc := ⟨rfl, rfl, rfl⟩
theorem stbXInc : Statement .stbXInc := ⟨rfl, rfl, rfl⟩
theorem staDecX : Statement .staDecX := ⟨rfl, rfl, rfl⟩
theorem stbDecX : Statement .stbDecX := ⟨rfl, rfl, rfl⟩
theorem staNX (n : Byte) : Statement (.staNX n) := ⟨rfl, rfl, rfl⟩
theorem stbNX (n : Byte) : Statement (.stbNX n) := ⟨rfl, rfl, rfl⟩
theorem staAX : Statement .staAX := ⟨rfl, rfl, rfl⟩
theorem stbAX : Statement .stbAX := ⟨rfl, rfl, rfl⟩
theorem staBX : Statement .staBX := ⟨rfl, rfl, rfl⟩
theorem stbBX : Statement .stbBX := ⟨rfl, rfl, rfl⟩

end Sys2Proof.Laws.OpcodeLength
end

