-- ==== Sys2Proof/Tests/Slice0.lean ====
section
/-!
SUPPORT. The model's own tests: a word for every constructor of the decoder, the checks of
well-formedness on ill-formed bytes, one-step vectors of 95_test_vectors.md (their numbers in the
names and in the docstrings; only the fields the vectors fix are compared), and, for each
statement with hypotheses, a state and operands that meet them.
-/

namespace Sys2Proof.Machine.Tests

/-- A memory that lists these bytes. -/
def memOf : List (Byte × Byte) → Memory
  | [] => []
  | (a, v) :: rest => (memOf rest).write a v

/-- The reset state with another PC and these bytes in memory. -/
def start (pc : Byte) (mem : List (Byte × Byte)) : State :=
  { State.reset with pc := pc, mem := memOf mem }

/-- What is observed after one step that answers a next state. -/
def after {α : Type} (m : State) (f : State → α) : Option α :=
  match step m with
  | .next t => some (f t)
  | _ => none

/-- The fault of one step. -/
def stops (m : State) : Option Fault :=
  match step m with
  | .fault f => some f
  | _ => none

/-! ## Decoding: every row of the opcode map (30_encoding.md R90), the words written from it -/

theorem test_decode_row_0 :
    [[0x00], [0x01], [0x02], [0x03], [0x04], [0x05], [0x06], [0x07], [0x08],
     [0x09], [0x0A], [0x0B, 0x4B], [0x0C, 0x4C], [0x0D, 0x4D], [0x0E, 0x4E],
     [0x0F, 0x4F]].map decode =
      [.ok (.nop, []), .ok (.tfrAB, []), .ok (.tfrBA, []), .ok (.tfrACC, []),
       .ok (.tfrCCA, []), .ok (.tfrXS, []), .ok (.tfrSX, []), .ok (.exgAB, []),
       .ok (.exgACC, []), .ok (.exgBCC, []), .ok (.exgXS, []), .ok (.ldaAdr 0x4B, []),
       .ok (.ldbAdr 0x4C, []), .ok (.ldxAdr 0x4D, []), .ok (.ldsAdr 0x4E, []),
       .ok (.ldaImm 0x4F, [])] := rfl

theorem test_decode_row_1 :
    [[0x10, 0x50], [0x11, 0x51], [0x12, 0x52], [0x13, 0x53], [0x14, 0x54],
     [0x15, 0x55], [0x16, 0x56], [0x17, 0x57], [0x18, 0x58], [0x19, 0x59],
     [0x1A, 0x5A], [0x1B, 0x5B], [0x1C, 0x5C], [0x1D, 0x5D], [0x1E, 0x5E],
     [0x1F, 0x5F]].map decode =
      [.ok (.ldbImm 0x50, []), .ok (.ldxImm 0x51, []), .ok (.ldsImm 0x52, []),
       .ok (.staAdr 0x53, []), .ok (.stbAdr 0x54, []), .ok (.stxAdr 0x55, []),
       .ok (.stsAdr 0x56, []), .ok (.andaAdr 0x57, []), .ok (.andbAdr 0x58, []),
       .ok (.andaImm 0x59, []), .ok (.andbImm 0x5A, []), .ok (.oraAdr 0x5B, []),
       .ok (.orbAdr 0x5C, []), .ok (.oraImm 0x5D, []), .ok (.orbImm 0x5E, []),
       .ok (.eoraAdr 0x5F, [])] := rfl

theorem test_decode_row_2 :
    [[0x20, 0x60], [0x21, 0x61], [0x22, 0x62], [0x23], [0x24], [0x25, 0x65],
     [0x26, 0x66], [0x27, 0x67], [0x28, 0x68], [0x29, 0x69], [0x2A, 0x6A],
     [0x2B, 0x6B], [0x2C, 0x6C], [0x2D, 0x6D], [0x2E, 0x6E], [0x2F, 0x6F]].map decode =
      [.ok (.eorbAdr 0x60, []), .ok (.eoraImm 0x61, []), .ok (.eorbImm 0x62, []),
       .ok (.coma, []), .ok (.comb, []), .ok (.comAdr 0x65, []), .ok (.andccImm 0x66, []),
       .ok (.orccImm 0x67, []), .ok (.addaAdr 0x68, []), .ok (.addbAdr 0x69, []),
       .ok (.addaImm 0x6A, []), .ok (.addbImm 0x6B, []), .ok (.subaAdr 0x6C, []),
       .ok (.subbAdr 0x6D, []), .ok (.subaImm 0x6E, []), .ok (.subbImm 0x6F, [])] := rfl

theorem test_decode_row_3 :
    [[0x30], [0x31], [0x32, 0x72], [0x33], [0x34], [0x35, 0x75], [0x36], [0x37],
     [0x38, 0x78], [0x39], [0x3A], [0x3B, 0x7B], [0x3C], [0x3D], [0x3E, 0x7E],
     [0x3F]].map decode =
      [.ok (.nega, []), .ok (.negb, []), .ok (.negAdr 0x72, []), .ok (.asla, []),
       .ok (.aslb, []), .ok (.aslAdr 0x75, []), .ok (.rola, []), .ok (.rolb, []),
       .ok (.rolAdr 0x78, []), .ok (.inca, []), .ok (.incb, []), .ok (.incAdr 0x7B, []),
       .ok (.deca, []), .ok (.decb, []), .ok (.decAdr 0x7E, []), .ok (.clra, [])] := rfl

theorem test_decode_row_4 :
    [[0x40], [0x41, 0x81], [0x42, 0x82], [0x43, 0x83], [0x44, 0x84], [0x45, 0x85],
     [0x46, 0x86], [0x47, 0x87], [0x48, 0x88], [0x49, 0x89], [0x4A], [0x4B],
     [0x4C, 0x8C], [0x4D, 0x8D], [0x4E, 0x8E], [0x4F, 0x8F]].map decode =
      [.ok (.clrb, []), .ok (.clrAdr 0x81, []), .ok (.cmpaAdr 0x82, []),
       .ok (.cmpbAdr 0x83, []), .ok (.cmpxAdr 0x84, []), .ok (.cmpsAdr 0x85, []),
       .ok (.cmpaImm 0x86, []), .ok (.cmpbImm 0x87, []), .ok (.cmpxImm 0x88, []),
       .ok (.cmpsImm 0x89, []), .ok (.tsta, []), .ok (.tstb, []), .ok (.tstAdr 0x8C, []),
       .ok (.bitaAdr 0x8D, []), .ok (.bitbAdr 0x8E, []), .ok (.bitaImm 0x8F, [])] := rfl

theorem test_decode_row_5 :
    [[0x50, 0x90], [0x51, 0x91], [0x52, 0x92], [0x53, 0x93], [0x54, 0x94],
     [0x55, 0x95], [0x56, 0x96], [0x57, 0x97], [0x58, 0x98], [0x59, 0x99],
     [0x5A, 0x9A], [0x5B, 0x9B], [0x5C, 0x9C], [0x5D, 0x9D], [0x5E, 0x9E],
     [0x5F, 0x9F]].map decode =
      [.ok (.bitbImm 0x90, []), .ok (.jmpAdr 0x91, []), .ok (.braOffs 0x92, []),
       .ok (.bmiOffs 0x93, []), .ok (.bplOffs 0x94, []), .ok (.beqOffs 0x95, []),
       .ok (.bneOffs 0x96, []), .ok (.bvsOffs 0x97, []), .ok (.bvcOffs 0x98, []),
       .ok (.bcsOffs 0x99, []), .ok (.bccOffs 0x9A, []), .ok (.bhiOffs 0x9B, []),
       .ok (.blsOffs 0x9C, []), .ok (.bgtOffs 0x9D, []), .ok (.bgeOffs 0x9E, []),
       .ok (.bleOffs 0x9F, [])] := rfl

theorem test_decode_row_6 :
    [[0x60, 0xA0], [0x61, 0xA1], [0x62], [0x63, 0xA3], [0x64], [0x65], [0x66],
     [0x67], [0x68], [0x69], [0x6A], [0x6B], [0x6C], [0x6D], [0x6E], [0x6F, 0xAF]].map decode =
      [.ok (.bltOffs 0xA0, []), .ok (.jsrAdr 0xA1, []), .ok (.rts, []),
       .ok (.bsrOffs 0xA3, []), .ok (.rti, []), .ok (.pshsA, []), .ok (.pshsB, []),
       .ok (.pshsCC, []), .ok (.pshsX, []), .ok (.pulsA, []), .ok (.pulsB, []),
       .ok (.pulsCC, []), .ok (.pulsX, []), .ok (.leaxDecX, []), .ok (.leaxXInc, []),
       .ok (.leaxNX 0xAF, [])] := rfl

theorem test_decode_row_7 :
    [[0x70], [0x71], [0x72], [0x73], [0x74], [0x75], [0x76], [0x77], [0x78, 0xB8],
     [0x79, 0xB9], [0x7A], [0x7B], [0x7C], [0x7D], [0x7E], [0x7F]].map decode =
      [.ok (.leaxAX, []), .ok (.leaxBX, []), .ok (.ldaX, []), .ok (.ldbX, []),
       .ok (.ldaXInc, []), .ok (.ldbXInc, []), .ok (.ldaDecX, []), .ok (.ldbDecX, []),
       .ok (.ldaNX 0xB8, []), .ok (.ldbNX 0xB9, []), .ok (.ldaAX, []), .ok (.ldbAX, []),
       .ok (.ldaBX, []), .ok (.ldbBX, []), .ok (.staX, []), .ok (.stbX, [])] := rfl

theorem test_decode_row_8 :
    [[0x80], [0x81], [0x82], [0x83], [0x84, 0xC4], [0x85, 0xC5], [0x86], [0x87],
     [0x88], [0x89]].map decode =
      [.ok (.staXInc, []), .ok (.stbXInc, []), .ok (.staDecX, []), .ok (.stbDecX, []),
       .ok (.staNX 0xC4, []), .ok (.stbNX 0xC5, []), .ok (.staAX, []), .ok (.stbAX, []),
       .ok (.staBX, []), .ok (.stbBX, [])] := rfl

theorem test_decode_refuses :
    [[], [0x8A], [0xFF, 0x00], [0x0B]].map decode =
      [.error .noBytes, .error (.illegalOpcode 0x8A), .error (.illegalOpcode 0xFF),
        .error (.noOperand 0x0B)] := rfl

theorem test_table_word_two_bytes : decodeTableWord 16 0x700F = some (.ldaImm 0x70) := rfl

theorem test_table_word_short : decodeTableWord 8 0x0F = some (.ldaImm 0x00) := rfl

theorem test_table_word_refused : decodeTableWord 8 0x8F = none := rfl

/-! ## Well-formedness: what the checks refuse -/

theorem test_wf_no_byte : codeWf [] = false := rfl

theorem test_wf_unassigned_opcode : codeWf [0x8A] = false := rfl

theorem test_wf_missing_operand : codeWf [0x0B] = false := rfl

theorem test_wf_extra_byte : codeWf [0x00, 0x00] = false := rfl

theorem test_wf_whole_instruction : codeWf [0x0B, 0x40] = true := rfl

theorem test_memory_wf_refuses_order : Memory.wf [(0x41, 0x00), (0x40, 0x00)] = false := rfl

theorem test_memory_wf_refuses_repeat : Memory.wf [(0x40, 0x00), (0x40, 0x01)] = false := rfl

theorem test_memory_wf_refuses_address : Memory.wf [(256, 0x00)] = false := rfl

/-! ## The fetch of the instruction that the host places -/

theorem test_fetch_word_runs :
    after (State.reset.withFetchWord 16 0x700F) (fun t => (t.a, t.pc)) = some (0x70, 0x02) := rfl

theorem test_fetch_word_before_events :
    after (({ State.reset with inputs := [.irq] }).withFetchWord 8 0x6E)
      (fun t => (t.x, t.pc, t.inputs)) = some (0x01, 0x01, [.irq]) := rfl

/-! ## One-step vectors of 95_test_vectors.md -/

/-- V59: `ADDA #Data`, plain sum; the old C is not added in (no add-with-carry exists). -/
theorem test_addaImm_v59 :
    after { start 0x10 [(0x10, 0x2A), (0x11, 0x22)] with
      a := 0x11, cc := ⟨false, false, false, false, true⟩ }
      (fun t => (t.a, t.cc.h, t.cc.n, t.cc.z, t.cc.v, t.cc.c, t.pc)) =
      some (0x33, false, false, false, false, false, 0x12) := rfl

/-- V E2b: `SUBA #Data`, E2b: -100 - 30, wrong sign, V = 1; no borrow. -/
theorem test_subaImm_ve2b :
    after { start 0x10 [(0x10, 0x2E), (0x11, 0x1E)] with a := 0x9C }
      (fun t => (t.a, t.cc.n, t.cc.z, t.cc.v, t.cc.c, t.pc)) =
      some (0x7E, false, false, true, false, 0x12) := rfl

/-- V2: `NOP`, pc wraps from $FF to $00. -/
theorem test_nop_v2 :
    after (start 0xFF [(0xFF, 0x00)])
      (fun t => (t.pc)) =
      some (0x00) := rfl

/-- V3: `TFR A,B`, flags untouched. -/
theorem test_tfrAB_v3 :
    after { start 0x10 [(0x10, 0x01)] with
      a := 0x5A, b := 0xC3, cc := ⟨false, true, false, false, false⟩ }
      (fun t => (t.b, t.pc)) =
      some (0x5A, 0x11) := rfl

/-- V4: `TFR B,A`. -/
theorem test_tfrBA_v4 :
    after { start 0x10 [(0x10, 0x02)] with a := 0x5A, b := 0xC3 }
      (fun t => (t.a, t.pc)) =
      some (0xC3, 0x11) := rfl

/-- V5: `TFR A,CC`, all flags set from A; bits 7:5 of A ignored. -/
theorem test_tfrACC_v5 :
    after { start 0x10 [(0x10, 0x03)] with a := 0xFF, cc := ⟨false, false, false, false, false⟩ }
      (fun t => (t.cc.h, t.cc.n, t.cc.z, t.cc.v, t.cc.c, t.pc)) =
      some (true, true, true, true, true, 0x11) := rfl

/-- V9: `TFR X,S`. -/
theorem test_tfrXS_v9 :
    after { start 0x10 [(0x10, 0x05)] with x := 0x40, s := 0xF0 }
      (fun t => (t.s, t.pc)) =
      some (0x40, 0x11) := rfl

/-- V10: `TFR S,X`. -/
theorem test_tfrSX_v10 :
    after { start 0x10 [(0x10, 0x06)] with x := 0x40, s := 0xF0 }
      (fun t => (t.x, t.pc)) =
      some (0xF0, 0x11) := rfl

/-- V11: `EXG A,B`. -/
theorem test_exgAB_v11 :
    after { start 0x10 [(0x10, 0x07)] with a := 0x5A, b := 0xC3 }
      (fun t => (t.a, t.b, t.pc)) =
      some (0xC3, 0x5A, 0x11) := rfl

/-- V12: `EXG A,CC`, A gets the old CC image, CC gets the old A. -/
theorem test_exgACC_v12 :
    after { start 0x10 [(0x10, 0x08)] with a := 0x0A, cc := ⟨true, false, false, false, true⟩ }
      (fun t => (t.a, t.cc.h, t.cc.n, t.cc.z, t.cc.v, t.cc.c, t.pc)) =
      some (ccToByte ⟨true, false, false, false, true⟩ (Config.ccUnusedRead 0),
        false, true, false, true, false, 0x11) := rfl

/-- V14: `EXG X,S`. -/
theorem test_exgXS_v14 :
    after { start 0x10 [(0x10, 0x0A)] with x := 0x40, s := 0xF0 }
      (fun t => (t.x, t.s, t.pc)) =
      some (0xF0, 0x40, 0x11) := rfl

/-- V15: `LDA Adr`, load sets no flag, even for $00. -/
theorem test_ldaAdr_v15 :
    after { start 0x10 [(0x10, 0x0B), (0x11, 0x40), (0x40, 0x00)] with
      cc := ⟨false, true, false, false, false⟩ }
      (fun t => (t.a, t.pc)) =
      some (0x00, 0x12) := rfl

/-- V23: `LDA #Data`, operand byte fetched from $00 after the opcode at $FF. -/
theorem test_ldaImm_v23 :
    after (start 0xFF [(0xFF, 0x0F), (0x00, 0x77)])
      (fun t => (t.a, t.pc)) =
      some (0x77, 0x01) := rfl

/-- V28: `STA Adr`, store into the next instruction's opcode byte: the next fetch at $12 reads $00
= NOP (20_memory.md rule R61). -/
theorem test_staAdr_v28 :
    after { start 0x10 [(0x10, 0x13), (0x11, 0x12)] with a := 0x00 }
      (fun t => (t.mem.read 0x12, t.pc)) =
      some (0x00, 0x12) := rfl

/-- V30: `ANDA #Data`, zero result. -/
theorem test_andaImm_v30 :
    after { start 0x10 [(0x10, 0x19), (0x11, 0x00)] with a := 0x5A }
      (fun t => (t.a, t.cc.n, t.cc.z, t.cc.v, t.cc.c, t.pc)) =
      some (0x00, false, true, false, false, 0x12) := rfl

/-- V31: `ANDA Adr`. -/
theorem test_andaAdr_v31 :
    after { start 0x10 [(0x10, 0x17), (0x11, 0x40), (0x40, 0x80)] with a := 0xFF }
      (fun t => (t.a, t.cc.n, t.cc.z, t.cc.v, t.cc.c, t.pc)) =
      some (0x80, true, false, false, false, 0x12) := rfl

/-- V34: `ORA #Data`. -/
theorem test_oraImm_v34 :
    after { start 0x10 [(0x10, 0x1D), (0x11, 0x80)] with a := 0x5A }
      (fun t => (t.a, t.cc.n, t.cc.z, t.cc.v, t.cc.c, t.pc)) =
      some (0xDA, true, false, false, false, 0x12) := rfl

/-- V35: `ORA Adr`, $00 OR $00. -/
theorem test_oraAdr_v35 :
    after { start 0x10 [(0x10, 0x1B), (0x11, 0x40), (0x40, 0x00)] with a := 0x00 }
      (fun t => (t.a, t.cc.n, t.cc.z, t.cc.v, t.cc.c, t.pc)) =
      some (0x00, false, true, false, false, 0x12) := rfl

/-- V39: `EORA #Data`, EOR with $FF complements, but unlike COM clears C. -/
theorem test_eoraImm_v39 :
    after { start 0x10 [(0x10, 0x21), (0x11, 0xFF)] with
      a := 0x5A, cc := ⟨false, false, false, false, true⟩ }
      (fun t => (t.a, t.cc.n, t.cc.z, t.cc.v, t.cc.c, t.pc)) =
      some (0xA5, true, false, false, false, 0x12) := rfl

/-- V40: `EORA Adr`. -/
theorem test_eoraAdr_v40 :
    after { start 0x10 [(0x10, 0x1F), (0x11, 0x40), (0x40, 0xF0)] with a := 0x0F }
      (fun t => (t.a, t.cc.n, t.cc.z, t.cc.v, t.cc.c, t.pc)) =
      some (0xFF, true, false, false, false, 0x12) := rfl

/-- V43: `COMA`, C undefined after COM. -/
theorem test_coma_v43 :
    after { start 0x10 [(0x10, 0x23)] with a := 0x00, cc := ⟨false, false, false, false, false⟩ }
      (fun t => (t.a, t.cc.n, t.cc.z, t.cc.v, t.pc)) =
      some (0xFF, true, false, false, 0x11) := rfl

/-- V46: `COM Adr`, read then write of the same address. -/
theorem test_comAdr_v46 :
    after (start 0x10 [(0x10, 0x25), (0x11, 0x40), (0x40, 0x0F)])
      (fun t => (t.mem.read 0x40, t.cc.n, t.cc.z, t.cc.v, t.pc)) =
      some (0xF0, true, false, false, 0x12) := rfl

/-- V47: `ANDCC #Data`, clear C only. -/
theorem test_andccImm_v47 :
    after { start 0x10 [(0x10, 0x26), (0x11, 0xFE)] with cc := ⟨true, true, true, true, true⟩ }
      (fun t => (t.cc.h, t.cc.n, t.cc.z, t.cc.v, t.cc.c, t.pc)) =
      some (true, true, true, true, false, 0x12) := rfl

/-- V52: `ORCC #Data`, upper three bits set nothing. -/
theorem test_orccImm_v52 :
    after { start 0x10 [(0x10, 0x27), (0x11, 0xE0)] with cc := ⟨false, true, false, true, false⟩ }
      (fun t => (t.cc.h, t.cc.n, t.cc.z, t.cc.v, t.cc.c, t.pc)) =
      some (false, true, false, true, false, 0x12) := rfl

/-- V60: `ADDA Adr`. -/
theorem test_addaAdr_v60 :
    after { start 0x10 [(0x10, 0x28), (0x11, 0x40), (0x40, 0x0F)] with a := 0x5A }
      (fun t => (t.a, t.cc.h, t.cc.n, t.cc.z, t.cc.v, t.cc.c, t.pc)) =
      some (0x69, true, false, false, false, false, 0x12) := rfl

/-- V68: `SUBA Adr`. -/
theorem test_subaAdr_v68 :
    after { start 0x10 [(0x10, 0x2C), (0x11, 0x40), (0x40, 0x0F)] with a := 0x5A }
      (fun t => (t.a, t.cc.n, t.cc.z, t.cc.v, t.cc.c, t.pc)) =
      some (0x4B, false, false, false, false, 0x12) := rfl

/-- V72: `NEGA`, NEG of $00: the only case with C = 0. -/
theorem test_nega_v72 :
    after { start 0x10 [(0x10, 0x30)] with a := 0x00, cc := ⟨false, false, false, false, true⟩ }
      (fun t => (t.a, t.cc.n, t.cc.z, t.cc.v, t.cc.c, t.pc)) =
      some (0x00, false, true, false, false, 0x11) := rfl

/-- V75: `NEG Adr`. -/
theorem test_negAdr_v75 :
    after (start 0x10 [(0x10, 0x32), (0x11, 0x40), (0x40, 0x7F)])
      (fun t => (t.mem.read 0x40, t.cc.n, t.cc.z, t.cc.v, t.cc.c, t.pc)) =
      some (0x81, true, false, false, true, 0x12) := rfl

/-- V76: `ASLA`, sign changes: V = 1, C = 0. -/
theorem test_asla_v76 :
    after { start 0x10 [(0x10, 0x33)] with a := 0x40 }
      (fun t => (t.a, t.cc.n, t.cc.z, t.cc.v, t.cc.c, t.pc)) =
      some (0x80, true, false, true, false, 0x11) := rfl

/-- V81: `ASL Adr`. -/
theorem test_aslAdr_v81 :
    after (start 0x10 [(0x10, 0x35), (0x11, 0x40), (0x40, 0x55)])
      (fun t => (t.mem.read 0x40, t.cc.n, t.cc.z, t.cc.v, t.cc.c, t.pc)) =
      some (0xAA, true, false, true, false, 0x12) := rfl

/-- V85: `ROLA`, zero result only when A = $00 or $80 and C = 0. -/
theorem test_rola_v85 :
    after { start 0x10 [(0x10, 0x36)] with a := 0x00, cc := ⟨false, false, false, false, false⟩ }
      (fun t => (t.a, t.cc.n, t.cc.z, t.cc.v, t.cc.c, t.pc)) =
      some (0x00, false, true, false, false, 0x11) := rfl

/-- V87: `ROL Adr`. -/
theorem test_rolAdr_v87 :
    after { start 0x10 [(0x10, 0x38), (0x11, 0x40), (0x40, 0x7F)] with
      cc := ⟨false, false, false, false, true⟩ }
      (fun t => (t.mem.read 0x40, t.cc.n, t.cc.z, t.cc.v, t.cc.c, t.pc)) =
      some (0xFF, true, false, true, false, 0x12) := rfl

/-- V88: `INCA`, INC sets C here (carry out of $FF + 1). -/
theorem test_inca_v88 :
    after { start 0x10 [(0x10, 0x39)] with a := 0xFF, cc := ⟨false, false, false, false, false⟩ }
      (fun t => (t.a, t.cc.n, t.cc.z, t.cc.v, t.cc.c, t.pc)) =
      some (0x00, false, true, false, true, 0x11) := rfl

/-- V92: `INC Adr`. -/
theorem test_incAdr_v92 :
    after (start 0x10 [(0x10, 0x3B), (0x11, 0x40), (0x40, 0x0F)])
      (fun t => (t.mem.read 0x40, t.cc.n, t.cc.z, t.cc.v, t.cc.c, t.pc)) =
      some (0x10, false, false, false, false, 0x12) := rfl

/-- V93: `DECA`, DEC of $00: borrow. -/
theorem test_deca_v93 :
    after { start 0x10 [(0x10, 0x3C)] with a := 0x00 }
      (fun t => (t.a, t.cc.n, t.cc.z, t.cc.v, t.cc.c, t.pc)) =
      some (0xFF, true, false, false, true, 0x11) := rfl

/-- V97: `DEC Adr`. -/
theorem test_decAdr_v97 :
    after (start 0x10 [(0x10, 0x3E), (0x11, 0x40), (0x40, 0x01)])
      (fun t => (t.mem.read 0x40, t.cc.n, t.cc.z, t.cc.v, t.cc.c, t.pc)) =
      some (0x00, false, true, false, false, 0x12) := rfl

/-- V98: `CLRA`, V undefined, H cleared. -/
theorem test_clra_v98 :
    after { start 0x10 [(0x10, 0x3F)] with a := 0x5A, cc := ⟨true, true, false, true, true⟩ }
      (fun t => (t.a, t.cc.h, t.cc.n, t.cc.z, t.cc.c, t.pc)) =
      some (0x00, false, false, true, false, 0x11) := rfl

/-- V100: `CLR Adr`, write only; the old value is not read. -/
theorem test_clrAdr_v100 :
    after (start 0x10 [(0x10, 0x41), (0x11, 0x40)])
      (fun t => (t.mem.read 0x40, t.cc.h, t.cc.n, t.cc.z, t.cc.c, t.pc)) =
      some (0x00, false, false, true, false, 0x12) := rfl

/-- V103: `CMPA #Data`, $5A vs $80: unsigned lower (C = 1), signed greater (N = V). -/
theorem test_cmpaImm_v103 :
    after { start 0x10 [(0x10, 0x46), (0x11, 0x80)] with a := 0x5A }
      (fun t => (t.cc.n, t.cc.z, t.cc.v, t.cc.c, t.pc)) =
      some (true, false, true, true, 0x12) := rfl

/-- V105: `CMPA Adr`. -/
theorem test_cmpaAdr_v105 :
    after { start 0x10 [(0x10, 0x42), (0x11, 0x40), (0x40, 0x0F)] with a := 0x5A }
      (fun t => (t.cc.n, t.cc.z, t.cc.v, t.cc.c, t.pc)) =
      some (false, false, false, false, 0x12) := rfl

/-- V114: `TSTA`, negative. -/
theorem test_tsta_v114 :
    after { start 0x10 [(0x10, 0x4A)] with a := 0x80 }
      (fun t => (t.cc.n, t.cc.z, t.cc.v, t.cc.c, t.pc)) =
      some (true, false, false, false, 0x11) := rfl

/-- V116: `TST Adr`, read only, no write. -/
theorem test_tstAdr_v116 :
    after (start 0x10 [(0x10, 0x4C), (0x11, 0x40), (0x40, 0x0F)])
      (fun t => (t.cc.n, t.cc.z, t.cc.v, t.cc.c, t.pc)) =
      some (false, false, false, false, 0x12) := rfl

/-- V118: `BITA #Data`, no common bit: Z = 1, A unchanged. -/
theorem test_bitaImm_v118 :
    after { start 0x10 [(0x10, 0x4F), (0x11, 0xA5)] with a := 0x5A }
      (fun t => (t.cc.n, t.cc.z, t.cc.v, t.cc.c, t.pc)) =
      some (false, true, false, false, 0x12) := rfl

/-- V119: `BITA Adr`. -/
theorem test_bitaAdr_v119 :
    after { start 0x10 [(0x10, 0x4D), (0x11, 0x40), (0x40, 0x80)] with a := 0x80 }
      (fun t => (t.cc.n, t.cc.z, t.cc.v, t.cc.c, t.pc)) =
      some (true, false, false, false, 0x12) := rfl

/-- V123: `JMP Adr`, jump to itself: end-of-run idiom. -/
theorem test_jmpAdr_v123 :
    after (start 0x10 [(0x10, 0x51), (0x11, 0x10)])
      (fun t => (t.pc)) =
      some (0x10) := rfl

/-- V127: `BRA Offs`, instruction at $FE; pc after fetch is $00; target $10. -/
theorem test_braOffs_v127 :
    after (start 0xFE [(0xFE, 0x52), (0xFF, 0x10)])
      (fun t => (t.pc)) =
      some (0x10) := rfl

/-- V130: `BMI Offs`, not taken. -/
theorem test_bmiOffs_v130 :
    after { start 0x10 [(0x10, 0x53), (0x11, 0x05)] with
      cc := ⟨false, false, false, false, false⟩ }
      (fun t => (t.pc)) =
      some (0x12) := rfl

/-- V131: `BPL Offs`, taken. -/
theorem test_bplOffs_v131 :
    after { start 0x10 [(0x10, 0x54), (0x11, 0x05)] with
      cc := ⟨false, false, false, false, false⟩ }
      (fun t => (t.pc)) =
      some (0x17) := rfl

/-- V132: `BEQ Offs`, taken, backward. -/
theorem test_beqOffs_v132 :
    after { start 0x10 [(0x10, 0x55), (0x11, 0xFC)] with
      cc := ⟨false, false, true, false, false⟩ }
      (fun t => (t.pc)) =
      some (0x0E) := rfl

/-- V133: `BNE Offs`, not taken. -/
theorem test_bneOffs_v133 :
    after { start 0x10 [(0x10, 0x56), (0x11, 0xFC)] with
      cc := ⟨false, false, true, false, false⟩ }
      (fun t => (t.pc)) =
      some (0x12) := rfl

/-- V134: `BVS Offs`, taken. -/
theorem test_bvsOffs_v134 :
    after { start 0x10 [(0x10, 0x57), (0x11, 0x05)] with
      cc := ⟨false, false, false, true, false⟩ }
      (fun t => (t.pc)) =
      some (0x17) := rfl

/-- V135: `BVC Offs`, not taken. -/
theorem test_bvcOffs_v135 :
    after { start 0x10 [(0x10, 0x58), (0x11, 0x05)] with
      cc := ⟨false, false, false, true, false⟩ }
      (fun t => (t.pc)) =
      some (0x12) := rfl

/-- V136: `BCS Offs`, taken. -/
theorem test_bcsOffs_v136 :
    after { start 0x10 [(0x10, 0x59), (0x11, 0x05)] with
      cc := ⟨false, false, false, false, true⟩ }
      (fun t => (t.pc)) =
      some (0x17) := rfl

/-- V137: `BCC Offs`, not taken. -/
theorem test_bccOffs_v137 :
    after { start 0x10 [(0x10, 0x5A), (0x11, 0x05)] with
      cc := ⟨false, false, false, false, true⟩ }
      (fun t => (t.pc)) =
      some (0x12) := rfl

/-- V138: `BHI Offs`, taken: C = 0 and Z = 0. -/
theorem test_bhiOffs_v138 :
    after { start 0x10 [(0x10, 0x5B), (0x11, 0x05)] with
      cc := ⟨false, false, false, false, false⟩ }
      (fun t => (t.pc)) =
      some (0x17) := rfl

/-- V140: `BLS Offs`, taken: C = 1. -/
theorem test_blsOffs_v140 :
    after { start 0x10 [(0x10, 0x5C), (0x11, 0x05)] with
      cc := ⟨false, false, false, false, true⟩ }
      (fun t => (t.pc)) =
      some (0x17) := rfl

/-- V142: `BGT Offs`, taken: N = V = 1, Z = 0. -/
theorem test_bgtOffs_v142 :
    after { start 0x10 [(0x10, 0x5D), (0x11, 0x05)] with cc := ⟨false, true, false, true, false⟩ }
      (fun t => (t.pc)) =
      some (0x17) := rfl

/-- V144: `BGE Offs`, taken: N = V, Z irrelevant. -/
theorem test_bgeOffs_v144 :
    after { start 0x10 [(0x10, 0x5E), (0x11, 0x05)] with
      cc := ⟨false, false, true, false, false⟩ }
      (fun t => (t.pc)) =
      some (0x17) := rfl

/-- V145: `BLE Offs`, taken through Z. -/
theorem test_bleOffs_v145 :
    after { start 0x10 [(0x10, 0x5F), (0x11, 0x05)] with
      cc := ⟨false, false, true, false, false⟩ }
      (fun t => (t.pc)) =
      some (0x17) := rfl

/-- V147: `BLT Offs`, taken: N ≠ V. -/
theorem test_bltOffs_v147 :
    after { start 0x10 [(0x10, 0x60), (0x11, 0x05)] with
      cc := ⟨false, false, false, true, false⟩ }
      (fun t => (t.pc)) =
      some (0x17) := rfl

/-- V149: `JSR Adr`, pushes $12, the address after the JSR. -/
theorem test_jsrAdr_v149 :
    after { start 0x10 [(0x10, 0x61), (0x11, 0x80)] with s := 0xF0 }
      (fun t => (t.s, t.mem.read 0xEF, t.pc)) =
      some (0xEF, 0x12, 0x80) := rfl

/-- V152: `RTS`, S wraps from $FF to $00. -/
theorem test_rts_v152 :
    after { start 0x10 [(0x10, 0x62), (0xFF, 0x34)] with s := 0xFF }
      (fun t => (t.s, t.pc)) =
      some (0x00, 0x34) := rfl

/-- V154: `BSR Offs`, backward: $12 + $EE = $00. -/
theorem test_bsrOffs_v154 :
    after { start 0x10 [(0x10, 0x63), (0x11, 0xEE)] with s := 0xF0 }
      (fun t => (t.s, t.mem.read 0xEF, t.pc)) =
      some (0xEF, 0x12, 0x00) := rfl

/-- V156: `RTI`, frame wraps across $FF/$00; CC image $F6: upper bits ignored. -/
theorem test_rti_v156 :
    after { start 0x10 [(0x10, 0x64), (0x00, 0x03), (0x01, 0x80),
        (0xFD, 0x01), (0xFE, 0x02), (0xFF, 0xF6)] with
      s := 0xFD }
      (fun t => (t.s, t.a, t.b, t.x, t.cc.h, t.cc.n, t.cc.z, t.cc.v, t.cc.c, t.pc)) =
      some (0x02, 0x01, 0x02, 0x03, true, false, true, true, false, 0x80) := rfl

/-- V157: `PSHS A`. -/
theorem test_pshsA_v157 :
    after { start 0x10 [(0x10, 0x65)] with a := 0x5A, s := 0xF0 }
      (fun t => (t.s, t.mem.read 0xEF, t.pc)) =
      some (0xEF, 0x5A, 0x11) := rfl

/-- V158: `PSHS B`. -/
theorem test_pshsB_v158 :
    after { start 0x10 [(0x10, 0x66)] with b := 0xC3, s := 0xF0 }
      (fun t => (t.s, t.mem.read 0xEF, t.pc)) =
      some (0xEF, 0xC3, 0x11) := rfl

/-- V159: `PSHS CC`, CC image pushed; flags unchanged. -/
theorem test_pshsCC_v159 :
    after { start 0x10 [(0x10, 0x67)] with s := 0xF0, cc := ⟨true, false, true, false, true⟩ }
      (fun t => (t.s, t.mem.read 0xEF, t.pc)) =
      some (0xEF, ccToByte ⟨true, false, true, false, true⟩ (Config.ccUnusedRead 0), 0x11) := rfl

/-- V160: `PSHS X`, S wraps $00 to $FF. -/
theorem test_pshsX_v160 :
    after { start 0x10 [(0x10, 0x68)] with x := 0x40, s := 0x00 }
      (fun t => (t.s, t.mem.read 0xFF, t.pc)) =
      some (0xFF, 0x40, 0x11) := rfl

/-- V161: `PULS A`, pull sets no flag. -/
theorem test_pulsA_v161 :
    after { start 0x10 [(0x10, 0x69), (0xEF, 0x00)] with
      s := 0xEF, cc := ⟨false, false, false, false, false⟩ }
      (fun t => (t.s, t.a, t.pc)) =
      some (0xF0, 0x00, 0x11) := rfl

/-- V162: `PULS B`. -/
theorem test_pulsB_v162 :
    after { start 0x10 [(0x10, 0x6A), (0xEF, 0x99)] with s := 0xEF }
      (fun t => (t.s, t.b, t.pc)) =
      some (0xF0, 0x99, 0x11) := rfl

/-- V163: `PULS CC`, all five flags loaded. -/
theorem test_pulsCC_v163 :
    after { start 0x10 [(0x10, 0x6B), (0xEF, 0x1F)] with
      s := 0xEF, cc := ⟨false, false, false, false, false⟩ }
      (fun t => (t.s, t.cc.h, t.cc.n, t.cc.z, t.cc.v, t.cc.c, t.pc)) =
      some (0xF0, true, true, true, true, true, 0x11) := rfl

/-- V165: `PULS X`, S wraps $FF to $00. -/
theorem test_pulsX_v165 :
    after { start 0x10 [(0x10, 0x6C), (0xFF, 0x21)] with s := 0xFF }
      (fun t => (t.s, t.x, t.pc)) =
      some (0x00, 0x21, 0x11) := rfl

/-- V167: `LEAX ,-X`, wraps below zero. -/
theorem test_leaxDecX_v167 :
    after { start 0x10 [(0x10, 0x6D)] with x := 0x00, cc := ⟨false, false, false, false, false⟩ }
      (fun t => (t.x, t.pc)) =
      some (0xFF, 0x11) := rfl

/-- V169: `LEAX ,X+`, wraps to $00, Z not set. -/
theorem test_leaxXInc_v169 :
    after { start 0x10 [(0x10, 0x6E)] with x := 0xFF, cc := ⟨false, false, false, false, false⟩ }
      (fun t => (t.x, t.pc)) =
      some (0x00, 0x11) := rfl

/-- V171: `LEAX n,X`, n = $FE acts as -2. -/
theorem test_leaxNX_v171 :
    after { start 0x10 [(0x10, 0x6F), (0x11, 0xFE)] with x := 0x40 }
      (fun t => (t.x, t.pc)) =
      some (0x3E, 0x12) := rfl

/-- V173: `LEAX A,X`. -/
theorem test_leaxAX_v173 :
    after { start 0x10 [(0x10, 0x70)] with a := 0x5A, x := 0x40 }
      (fun t => (t.x, t.pc)) =
      some (0x9A, 0x11) := rfl

/-- V174: `LEAX B,X`, wrap: $40 + $C3. -/
theorem test_leaxBX_v174 :
    after { start 0x10 [(0x10, 0x71)] with b := 0xC3, x := 0x40 }
      (fun t => (t.x, t.pc)) =
      some (0x03, 0x11) := rfl

/-- V175: `LDA ,X`. -/
theorem test_ldaX_v175 :
    after { start 0x10 [(0x10, 0x72), (0x40, 0x0F)] with x := 0x40 }
      (fun t => (t.a, t.pc)) =
      some (0x0F, 0x11) := rfl

/-- V178: `LDB ,X+`, post-increment wraps X. -/
theorem test_ldbXInc_v178 :
    after { start 0x10 [(0x10, 0x75), (0xFF, 0xAB)] with x := 0xFF }
      (fun t => (t.b, t.x, t.pc)) =
      some (0xAB, 0x00, 0x11) := rfl

/-- V180: `LDB ,-X`, pre-decrement wraps X to $FF. -/
theorem test_ldbDecX_v180 :
    after { start 0x10 [(0x10, 0x77), (0xFF, 0xAB)] with x := 0x00 }
      (fun t => (t.x, t.b, t.pc)) =
      some (0xFF, 0xAB, 0x11) := rfl

/-- V183: `LDB n,X`, address wraps: $C3 + $40 = $103. -/
theorem test_ldbNX_v183 :
    after { start 0x10 [(0x10, 0x79), (0x11, 0xC3), (0x03, 0x33)] with x := 0x40 }
      (fun t => (t.b, t.pc)) =
      some (0x33, 0x12) := rfl

/-- V184: `LDA A,X`, A is offset and destination: address from the old A. -/
theorem test_ldaAX_v184 :
    after { start 0x10 [(0x10, 0x7A), (0x9A, 0x22)] with a := 0x5A, x := 0x40 }
      (fun t => (t.a, t.pc)) =
      some (0x22, 0x11) := rfl

/-- V187: `LDB B,X`, B is offset and destination. -/
theorem test_ldbBX_v187 :
    after { start 0x10 [(0x10, 0x7D), (0x03, 0x33)] with b := 0xC3, x := 0x40 }
      (fun t => (t.b, t.pc)) =
      some (0x33, 0x11) := rfl

/-- V188: `STA ,X`. -/
theorem test_staX_v188 :
    after { start 0x10 [(0x10, 0x7E)] with a := 0x5A, x := 0x40 }
      (fun t => (t.mem.read 0x40, t.pc)) =
      some (0x5A, 0x11) := rfl

/-- V190: `STA ,X+`, store at $FF, then X wraps. -/
theorem test_staXInc_v190 :
    after { start 0x10 [(0x10, 0x80)] with a := 0x5A, x := 0xFF }
      (fun t => (t.mem.read 0xFF, t.x, t.pc)) =
      some (0x5A, 0x00, 0x11) := rfl

/-- V192: `STA ,-X`, X wraps to $FF, store there. -/
theorem test_staDecX_v192 :
    after { start 0x10 [(0x10, 0x82)] with a := 0x5A, x := 0x00 }
      (fun t => (t.x, t.mem.read 0xFF, t.pc)) =
      some (0xFF, 0x5A, 0x11) := rfl

/-- V195: `STB n,X`, address wraps to $30. -/
theorem test_stbNX_v195 :
    after { start 0x10 [(0x10, 0x85), (0x11, 0xF0)] with b := 0xC3, x := 0x40 }
      (fun t => (t.mem.read 0x30, t.pc)) =
      some (0xC3, 0x12) := rfl

/-- V196: `STA A,X`, stores A at A + X. -/
theorem test_staAX_v196 :
    after { start 0x10 [(0x10, 0x86)] with a := 0x5A, x := 0x40 }
      (fun t => (t.mem.read 0x9A, t.pc)) =
      some (0x5A, 0x11) := rfl

/-- V199: `STB B,X`, stores B, not A (90_conflicts.md C1, decision D20). -/
theorem test_stbBX_v199 :
    after { start 0x10 [(0x10, 0x89)] with a := 0x5A, b := 0xC3, x := 0x40 }
      (fun t => (t.mem.read 0x03, t.pc)) =
      some (0xC3, 0x11) := rfl

/-- V200: the first unassigned opcode. -/
theorem test_unassigned_v200 : stops (start 0x10 [(0x10, 0x8A)]) = some (.illegalOpcode 0x8A) := rfl

/-- V201: the last unassigned opcode. -/
theorem test_unassigned_v201 : stops (start 0x10 [(0x10, 0xFF)]) = some (.illegalOpcode 0xFF) := rfl

/-- `BLS` reads C or Z: taken on Z alone. -/
theorem test_cond_ls_on_z : Cond.holds .ls ⟨false, false, true, false, false⟩ = true := rfl

/-- The default layout of the byte image of CC (00_scope.md R14): `uuuHNZVC`. -/
theorem test_cc_image : ccToByte ⟨true, false, true, true, false⟩ 0xA0 = 0xB6 := by decide

/-! ## Events of the environment -/

/-- The state of vector I3: the frame of an IRQ wraps below `$00`. -/
def irqStart : State :=
  { State.reset with
    a := 0xAA
    b := 0xBB
    x := 0xCC
    s := 0x02
    pc := 0x20
    cc := ⟨true, false, true, true, false⟩
    inputs := [.irq] }

/-- I3. -/
theorem test_irq_i3 :
    after irqStart (fun t => (t.mem.read 0x01, t.mem.read 0x00, t.mem.read 0xFE, t.mem.read 0xFD)) =
      some (0x20, 0xCC, 0xBB, 0xAA) := rfl

/-- I3: S, A, B, X and the flags. -/
theorem test_irq_i3_registers :
    after irqStart (fun t => (t.s, t.a, t.b, t.x, t.cc)) =
      some (0xFD, 0xAA, 0xBB, 0xCC, ⟨true, false, true, true, false⟩) := rfl

theorem test_reset_event :
    after { irqStart with inputs := [.reset] } (fun t => (t.pc, t.inputs)) = some (0x00, []) := rfl

/-- A machine launched with an image whose byte at `$40` the program has not changed, and whose byte
at `$01` it has. -/
def launched (event : Input) : State :=
  let image : Memory :=
    [(0x00, 0x10), (0x01, 0x11), (0x40, 0x44), (0xFD, 0x1D), (0xFE, 0x1E), (0xFF, 0x1F)]
  { irqStart with image := image, mem := image.write 0x01 0x99, inputs := [event] }

/-- After RESET a byte of the image that the program has not changed is still there (10_state.md R40). -/
theorem test_reset_image_byte : ∃ t, step (launched .reset) = .next t ∧ t.mem.read 0x40 = 0x44 :=
  ⟨_, rfl,
    (Memory.read_afterReset_image (launched .reset).mem (launched .reset).image _ rfl).elim id id⟩

/-- A launch image is what memory holds before the first fetch (10_state.md R40). -/
theorem test_launch : (State.launch [(0x40, 0x44)]).mem.read 0x40 = 0x44 := rfl

/-! ## Witnesses: the hypotheses of the statements can be met -/

/-- `STA` at `$10` storing a NOP at the next instruction, `$12`. -/
def storeAhead : State :=
  { start 0x10 [(0x10, 0x13), (0x11, 0x12), (0x12, 0xFF)] with a := 0x00 }

theorem witness_DecodeThenEncode : decode [0x0B, 0x40, 0x00] = .ok (.ldaAdr 0x40, [0x00]) := rfl

theorem witness_DecodeAcceptsExactlyTheAssignedCode :
    (∃ i, decode [0x89] = .ok (i, [])) ∧ codeWf [0x89] = true ∧ codeWf [0x8A] = false :=
  ⟨⟨.stbBX, rfl⟩, rfl, rfl⟩

theorem witness_StepRunsTheDecodedInstruction :
    storeAhead.runsNext = true ∧
      decode [storeAhead.mem.read storeAhead.pc, storeAhead.mem.read (storeAhead.pc + 1)] =
        .ok (.staAdr 0x12, []) :=
  ⟨rfl, rfl⟩

theorem witness_OnlyAnUnassignedOpcodeStops_fault :
    (start 0x10 [(0x10, 0x8A)]).runsNext = true ∧
      0x8A ≤ ((start 0x10 [(0x10, 0x8A)]).mem.read 0x10).toNat :=
  ⟨rfl, by decide⟩

theorem witness_OnlyAnUnassignedOpcodeStops_next :
    ¬((start 0x10 [(0x10, 0x89)]).runsNext = true ∧
      0x8A ≤ ((start 0x10 [(0x10, 0x89)]).mem.read 0x10).toNat) := by decide

theorem witness_StepKeepsMemoryCanonical :
    storeAhead.mem.wf = true ∧ ∃ t, step storeAhead = .next t :=
  ⟨rfl, _, rfl⟩

theorem witness_MaHoldsTheLastAccess : ∃ t, exec (.staAdr 0x40) storeAhead = .next t := ⟨_, rfl⟩

theorem witness_StoresOnlyWhereTheAccessTableSays :
    (∃ t, exec (.staAdr 0x40) storeAhead = .next t) ∧
      storeAddress (.staAdr 0x40) storeAhead ≠ some 0x41 :=
  ⟨⟨_, rfl⟩, by decide⟩

theorem witness_WritesOnlyWhatTheAccessMatrixSays :
    (∃ t, exec .nop storeAhead = .next t) ∧ writesA .nop = false ∧ writesB .nop = false ∧
      writesX .nop = false ∧ writesS .nop = false ∧ writesPc .nop = false ∧
      writesFlags .nop = false :=
  ⟨⟨_, rfl⟩, rfl, rfl, rfl, rfl, rfl, rfl⟩

theorem witness_FlagsLeftAlone_first : (encode .nop).head? = some (BitVec.ofNat 8 0x00) := rfl

theorem witness_FlagsLeftAlone_transfers :
    (encode (.stsAdr 0x00)).head? = some (BitVec.ofNat 8 0x16) := rfl

theorem witness_FlagsLeftAlone_jumps :
    (encode (.bsrOffs 0x00)).head? = some (BitVec.ofNat 8 0x63) := rfl

theorem witness_FlagsLeftAlone_stack : (encode .pulsX).head? = some (BitVec.ofNat 8 0x6C) := rfl

theorem witness_FlagsLeftAlone_last : (encode .stbBX).head? = some (BitVec.ofNat 8 0x89) := rfl

theorem witness_CallThenReturn_jsr :
    ∃ t w : State, exec (.jsrAdr 0x80) storeAhead = .next t ∧ w.s = t.s ∧
      w.mem.read t.s = t.mem.read t.s :=
  ⟨_, storeAhead.push storeAhead.pc, rfl, rfl, rfl⟩

theorem witness_CallThenReturn_bsr :
    ∃ t w : State, exec (.bsrOffs 0x80) storeAhead = .next t ∧ w.s = t.s ∧
      w.mem.read t.s = t.mem.read t.s :=
  ⟨_, storeAhead.push storeAhead.pc, rfl, rfl, rfl⟩

theorem witness_PushThenPullRestores :
    ∃ t w : State, exec .pshsA storeAhead = .next t ∧ w.s = t.s ∧ w.mem.read t.s = t.mem.read t.s :=
  ⟨_, storeAhead.push storeAhead.a, rfl, rfl, rfl⟩

theorem witness_IrqEntryPushesTheFrame : irqStart.inputs = .irq :: [] := rfl

theorem witness_RtiUndoesIrqEntry :
    ∃ t w : State, irqStart.inputs = .irq :: [] ∧ step irqStart = .next t ∧ w.s = t.s ∧
      ∀ k : Byte, k.toNat < 5 → w.mem.read (t.s + k) = t.mem.read (t.s + k) :=
  ⟨_, ({ irqStart with inputs := [] }).takeIrq, rfl, rfl, rfl, fun _ _ => rfl⟩

theorem witness_NestedIrqsUnwind :
    5 * 51 ≤ 256 ∧
      ({ irqStart with inputs := List.replicate 51 Input.irq ++ [Input.run] }).inputs =
        List.replicate 51 Input.irq ++ [Input.run] :=
  ⟨by decide, rfl⟩

theorem witness_ResetRestartsAtResetPc_kept :
    (launched .reset).inputs = .reset :: [] ∧
      (launched .reset).image.find (0x40 : Byte).toNat = some 0x44 ∧
      (launched .reset).mem.read 0x40 = 0x44 :=
  ⟨rfl, rfl, rfl⟩

theorem witness_ResetRestartsAtResetPc_changed :
    (launched .reset).inputs = .reset :: [] ∧
      (launched .reset).image.find (0x01 : Byte).toNat = some 0x11 ∧
      (launched .reset).mem.read 0x01 = 0x99 :=
  ⟨rfl, rfl, rfl⟩

/-- No push: the byte below S is as before. -/
theorem witness_ResetInIrqEntryLeavesAPrefix_0 :
    (launched (.resetInEntry 0)).inputs = .resetInEntry 0 :: [] ∧
      (launched (.resetInEntry 0)).image.find (0x01 : Byte).toNat = some 0x11 :=
  ⟨rfl, rfl⟩

/-- PC pushed. -/
theorem witness_ResetInIrqEntryLeavesAPrefix_1 :
    (launched (.resetInEntry 1)).inputs = .resetInEntry 1 :: [] ∧
      (launched (.resetInEntry 1)).image.find (0x01 : Byte).toNat = some 0x11 :=
  ⟨rfl, rfl⟩

/-- X pushed. -/
theorem witness_ResetInIrqEntryLeavesAPrefix_2 :
    (launched (.resetInEntry 2)).inputs = .resetInEntry 2 :: [] ∧
      (launched (.resetInEntry 2)).image.find (0x00 : Byte).toNat = some 0x10 :=
  ⟨rfl, rfl⟩

/-- CC pushed. -/
theorem witness_ResetInIrqEntryLeavesAPrefix_3 :
    (launched (.resetInEntry 3)).inputs = .resetInEntry 3 :: [] ∧
      (launched (.resetInEntry 3)).image.find (0xFF : Byte).toNat = some 0x1F :=
  ⟨rfl, rfl⟩

/-- B pushed. -/
theorem witness_ResetInIrqEntryLeavesAPrefix_4 :
    (launched (.resetInEntry 4)).inputs = .resetInEntry 4 :: [] ∧
      (launched (.resetInEntry 4)).image.find (0xFE : Byte).toNat = some 0x1E :=
  ⟨rfl, rfl⟩

/-- A pushed. -/
theorem witness_ResetInIrqEntryLeavesAPrefix_5 :
    (launched (.resetInEntry 5)).inputs = .resetInEntry 5 :: [] ∧
      (launched (.resetInEntry 5)).image.find (0xFD : Byte).toNat = some 0x1D :=
  ⟨rfl, rfl⟩

/-- More than five: an address outside the frame. -/
theorem witness_ResetInIrqEntryLeavesAPrefix_6 :
    (launched (.resetInEntry 6)).inputs = .resetInEntry 6 :: [] ∧
      (launched (.resetInEntry 6)).image.find (0x40 : Byte).toNat = some 0x44 :=
  ⟨rfl, rfl⟩

theorem witness_EndOfRunIsFinal_jmp :
    (start 0x10 [(0x10, 0x51), (0x11, 0x10)]).inputs = [] ∧
      (start 0x10 [(0x10, 0x51), (0x11, 0x10)]).atEndOfRun :=
  ⟨rfl, .inl ⟨rfl, rfl⟩⟩

theorem witness_EndOfRunIsFinal_bra :
    (start 0x10 [(0x10, 0x52), (0x11, 0xFE)]).inputs = [] ∧
      (start 0x10 [(0x10, 0x52), (0x11, 0xFE)]).atEndOfRun :=
  ⟨rfl, .inr ⟨rfl, rfl⟩⟩

/-- The opcode of the next instruction is stored. -/
theorem witness_StoreIsSeenByTheNextFetch_opcode :
    storeAhead.runsNext = true ∧
      decode [storeAhead.mem.read storeAhead.pc, storeAhead.mem.read (storeAhead.pc + 1)] =
        .ok (.staAdr 0x12, []) ∧
      storeAddress (.staAdr 0x12) (storeAhead.fetched (.staAdr 0x12)) = some 0x12 ∧
      storedByte (.staAdr 0x12) (storeAhead.fetched (.staAdr 0x12)) = some 0x00 ∧
      ∃ t, step storeAhead = .next t ∧ t.runsNext = true ∧ t.pc = 0x12 :=
  ⟨rfl, rfl, rfl, rfl, _, rfl, rfl, rfl⟩

/-- As in P5: `INC $13` changes the operand of `LDB #Data` at `$12`, with boundaries that say `run`. -/
def patchAhead : State :=
  { start 0x10 [(0x10, 0x3B), (0x11, 0x13), (0x12, 0x10), (0x13, 0x43)] with inputs := [.run, .run] }

/-- The operand of the next instruction is stored, by a storing form other than STA. -/
theorem witness_StoreIsSeenByTheNextFetch_operand :
    patchAhead.runsNext = true ∧
      decode [patchAhead.mem.read patchAhead.pc, patchAhead.mem.read (patchAhead.pc + 1)] =
        .ok (.incAdr 0x13, []) ∧
      storeAddress (.incAdr 0x13) (patchAhead.fetched (.incAdr 0x13)) = some 0x13 ∧
      storedByte (.incAdr 0x13) (patchAhead.fetched (.incAdr 0x13)) = some 0x44 ∧
      ∃ t, step patchAhead = .next t ∧ t.runsNext = true ∧ t.pc + 1 = 0x13 ∧
        decode [patchAhead.mem.read t.pc, 0x44] = .ok (.ldbImm 0x44, []) :=
  ⟨rfl, rfl, rfl, rfl, _, rfl, rfl, rfl, rfl⟩

end Sys2Proof.Machine.Tests
end

section
/-!
What `add8` answers for every carry in (00_scope.md R11), and its overflow read off the sign bits.
-/

namespace Sys2Proof.Machine

theorem add8_r_toNat (p q : Byte) (cin : Bool) :
    (add8 p q cin).r.toNat = (p.toNat + q.toNat + cin.toNat) % 256 :=
  BitVec.toNat_ofNat ..

theorem add8_h_iff (p q : Byte) (cin : Bool) :
    (add8 p q cin).h = true ↔ 15 < p.toNat % 16 + q.toNat % 16 + cin.toNat :=
  decide_eq_true_iff

theorem add8_v_iff (p q : Byte) (cin : Bool) :
    (add8 p q cin).v = true ↔
      p.toInt + q.toInt + cin.toNat < -128 ∨ 127 < p.toInt + q.toInt + cin.toNat := by
  simp [add8]

theorem add8_c_iff (p q : Byte) (cin : Bool) :
    (add8 p q cin).c = true ↔ 255 < p.toNat + q.toNat + cin.toNat :=
  decide_eq_true_iff

/-- Without a carry in, V is the library's signed overflow, whose bit form is known. -/
theorem add8_v_eq_saddOverflow (p q : Byte) : (add8 p q false).v = p.saddOverflow q := by
  rw [add8_v, BitVec.saddOverflow, ← Bool.decide_or]
  apply decide_eq_decide.mpr
  omega

/-- The bit form of V in 00_scope.md R11, by way of `BitVec.saddOverflow_eq`. -/
theorem add8_v_iff_bit7 (p q : Byte) :
    (add8 p q false).v = true ↔
      p.getLsbD 7 = q.getLsbD 7 ∧ (add8 p q false).r.getLsbD 7 ≠ p.getLsbD 7 := by
  rw [add8_v_eq_saddOverflow, BitVec.saddOverflow_eq, add8_r]
  simp [BitVec.msb_eq_getLsbD_last]

/-- Settles O15: one lemma for each component of the sum; N and Z are as `flagN` and `flagZ` define
them. -/
theorem additionAndItsFlags : Obligations.AdditionAndItsFlags := fun p q cin =>
  ⟨add8_r_toNat p q cin, add8_c_iff p q cin, add8_h_iff p q cin, add8_v_iff p q cin,
    add8_v_iff_bit7 p q, rfl, beq_iff_eq⟩

end Sys2Proof.Machine
end

section
/-!
The instructions that leave all flags alone (10_state.md R30): their meanings write no flag, and their
opcodes are all opcodes outside those of the instructions that write one.
-/

namespace Sys2Proof.Machine

@[simp] theorem State.loadReg_cc (m : State) (r : Reg) (src : Source) :
    (m.loadReg r src).cc = m.cc := by
  cases src with
  | data d => rw [State.loadReg_data, State.setReg_cc]
  | adr a => rw [State.loadReg_adr, State.setReg_cc]

@[simp] theorem State.indexAddress_cc (m : State) (form : IndexForm) :
    (m.indexAddress form).2.cc = m.cc := by
  cases form <;> rfl

@[simp] theorem State.indexAfter_cc (m : State) (form : IndexForm) :
    (m.indexAfter form).cc = m.cc := by
  cases form <;> rfl

@[simp] theorem State.loadIndexed_cc (m : State) (r : Reg) (form : IndexForm) :
    (m.loadIndexed r form).cc = m.cc := by
  simp [State.loadIndexed]

@[simp] theorem State.storeIndexed_cc (m : State) (r : Reg) (form : IndexForm) :
    (m.storeIndexed r form).cc = m.cc := by
  simp [State.storeIndexed]

@[simp] theorem State.branchIf_cc (m : State) (taken : Bool) (offs : Byte) :
    (m.branchIf taken offs).cc = m.cc := by
  rw [State.branchIf_eq]

/-- An instruction that is not in the flag column of the access matrix completes and leaves CC as it
was: group by group, the operation its meaning goes through leaves CC alone (10_state.md R30). -/
theorem exec_cc_of_writesFlags_eq_false {i : Instr} (m : State) (h : writesFlags i = false) :
    ∃ t, exec i m = .next t ∧ t.cc = m.cc := by
  cases i with
  | nop => exact ⟨m, rfl, rfl⟩
  | tfrAB | tfrBA | tfrXS | tfrSX | tfrCCA | exgAB | exgXS => exact ⟨_, rfl, State.setReg_cc ..⟩
  | ldaAdr | ldbAdr | ldxAdr | ldsAdr | ldaImm | ldbImm | ldxImm | ldsImm =>
    exact ⟨_, rfl, State.loadReg_cc ..⟩
  | staAdr | stbAdr | stxAdr | stsAdr => exact ⟨_, rfl, State.store_cc ..⟩
  | jmpAdr | braOffs | jsrAdr | bsrOffs | rts => exact ⟨_, rfl, State.jump_cc ..⟩
  | bmiOffs | bplOffs | beqOffs | bneOffs | bvsOffs | bvcOffs | bcsOffs | bccOffs | bhiOffs
  | blsOffs | bgtOffs | bgeOffs | bleOffs | bltOffs => exact ⟨_, rfl, State.branchIf_cc ..⟩
  | pshsA | pshsB | pshsCC | pshsX => exact ⟨_, rfl, State.push_cc ..⟩
  | pulsA | pulsB | pulsX => exact ⟨_, rfl, State.setReg_cc ..⟩
  | leaxDecX | leaxXInc | leaxNX | leaxAX | leaxBX => exact ⟨_, rfl, State.setReg_cc ..⟩
  | ldaX | ldbX | ldaXInc | ldbXInc | ldaDecX | ldbDecX | ldaNX | ldbNX | ldaAX | ldbAX | ldaBX
  | ldbBX => exact ⟨_, rfl, State.loadIndexed_cc ..⟩
  | staX | stbX | staXInc | stbXInc | staDecX | stbDecX | staNX | stbNX | staAX | stbAX | staBX
  | stbBX => exact ⟨_, rfl, State.storeIndexed_cc ..⟩
  | _ => cases h

/-- The opcodes of R30's list: NOP, the transfers, the jumps, the stack instructions, LEAX and the
indexed transfers, without the five that write CC. -/
def opcodeLeavesFlags (op : Nat) : Bool :=
  decide (op = 0x00 ∨ (0x01 ≤ op ∧ op ≤ 0x16 ∧ op ≠ 0x03 ∧ op ≠ 0x08 ∧ op ≠ 0x09) ∨
    (0x51 ≤ op ∧ op ≤ 0x63) ∨ (0x65 ≤ op ∧ op ≤ 0x6C ∧ op ≠ 0x6B) ∨ (0x6D ≤ op ∧ op ≤ 0x89))

/-- R30's list of opcodes and the flag column of the access matrix (R41) say the same, instruction by
instruction. -/
theorem opcodeLeavesFlags_eq_not_writesFlags (i : Instr) :
    (encode i).head?.map (fun b => opcodeLeavesFlags b.toNat) = some (!writesFlags i) := by
  cases i <;> rfl

/-- An opcode of the list is below 256, so it is the number of its byte. -/
theorem toNat_ofNat_of_opcodeLeavesFlags {op : Nat} (h : opcodeLeavesFlags op = true) :
    (BitVec.ofNat 8 op).toNat = op := by
  have hlist := of_decide_eq_true h
  have hlt : op < 2 ^ 8 := by omega
  rw [BitVec.toNat_ofNat, Nat.mod_eq_of_lt hlt]

/-- Settles O14: an instruction with an opcode of R30's list is not in the flag column of the access
matrix, and so leaves CC alone. -/
theorem flagsLeftAlone : Obligations.FlagsLeftAlone := by
  intro i m op hop hlist
  have hleaves : opcodeLeavesFlags op = true := decide_eq_true hlist
  have hwrites : writesFlags i = false := by
    have hcolumn := opcodeLeavesFlags_eq_not_writesFlags i
    rw [hop, Option.map_some, toNat_ofNat_of_opcodeLeavesFlags hleaves, hleaves] at hcolumn
    simpa using hcolumn
  exact exec_cc_of_writesFlags_eq_false m hwrites

end Sys2Proof.Machine
end

section
/-!
Decoding and encoding are inverse (30_encoding.md R80 to R82, R90). Both go through one relation, what
an opcode byte with its operand bytes stands for: `decode` reads it off the opcode map, `encode` writes
it, and so `decode bytes = .ok (i, rest)` says no more and no less than `bytes = encode i ++ rest`.
-/

namespace Sys2Proof

/-- The instruction that a shape stands for with its operand bytes: none in format F1, one in format F2
(30_encoding.md R81, R82). -/
inductive Shape.Yields : Shape → List Byte → Instr → Prop where
  | one (i : Instr) : Shape.Yields (.one i) [] i
  | two (f : Byte → Instr) (operand : Byte) : Shape.Yields (.two f) [operand] (f operand)

/-- Every instruction of the shape is encoded by this opcode and its operand bytes. -/
def Shape.EncodedBy (shape : Shape) (op : Byte) : Prop :=
  ∀ operands i, shape.Yields operands i → encode i = op :: operands

@[simp] theorem Shape.encodedBy_one (i : Instr) (op : Byte) :
    (Shape.one i).EncodedBy op ↔ encode i = [op] :=
  ⟨fun h => h _ _ (.one i), fun h _ _ hyields => by cases hyields; exact h⟩

@[simp] theorem Shape.encodedBy_two (f : Byte → Instr) (op : Byte) :
    (Shape.two f).EncodedBy op ↔ ∀ operand, encode (f operand) = [op, operand] :=
  ⟨fun h v => h _ _ (.two f v), fun h _ _ hyields => by cases hyields; exact h _⟩

/-- `decode` answers exactly what the shape of the first byte yields with the bytes it takes. -/
theorem decode_eq_ok_iff_yields {bytes rest : List Byte} {i : Instr} :
    decode bytes = .ok (i, rest) ↔
      ∃ op operands shape, bytes = op :: operands ++ rest ∧ decodeOp op = some shape ∧
        shape.Yields operands i := by
  constructor
  · intro h
    cases bytes with
    | nil => cases h
    | cons op tail =>
      simp only [decode] at h
      split at h
      next => cases h
      next hop => cases h; exact ⟨op, [], _, rfl, hop, .one i⟩
      next f hop =>
        split at h
        next => cases h
        next operand _ => cases h; exact ⟨op, [operand], _, rfl, hop, .two f operand⟩
  · rintro ⟨op, operands, shape, rfl, hop, hyields⟩
    cases hyields with
    | one => simp [decode, hop]
    | two => simp [decode, hop]

/-- The opcode that `encode` writes stands in the map, with a shape that yields the instruction: a
shape without an operand for the instructions named here, a shape with one for the others. -/
theorem exists_decodeOp_yields (i : Instr) :
    ∃ op operands shape, encode i = op :: operands ∧ decodeOp op = some shape ∧
      shape.Yields operands i := by
  cases i with
  | nop | tfrAB | tfrBA | tfrACC | tfrCCA | tfrXS | tfrSX | exgAB | exgACC | exgBCC | exgXS | coma
  | comb | nega | negb | asla | aslb | rola | rolb | inca | incb | deca | decb | clra | clrb | tsta
  | tstb | rts | rti | pshsA | pshsB | pshsCC | pshsX | pulsA | pulsB | pulsCC | pulsX | leaxDecX
  | leaxXInc | leaxAX | leaxBX | ldaX | ldbX | ldaXInc | ldbXInc | ldaDecX | ldbDecX | ldaAX | ldbAX
  | ldaBX | ldbBX | staX | stbX | staXInc | stbXInc | staDecX | stbDecX | staAX | stbAX | staBX
  | stbBX => exact ⟨_, [], _, rfl, rfl, .one _⟩
  | _ operand => exact ⟨_, [operand], _, rfl, rfl, .two _ operand⟩

/-- Each place of a part of the map that starts at opcode `first` agrees with `encode`. -/
def EncodedFrom (first : Nat) (row : List Shape) : Prop :=
  ∀ entry ∈ row.zipIdx first, entry.1.EncodedBy (BitVec.ofNat 8 entry.2)

theorem encodedFrom_append (first : Nat) (row later : List Shape) :
    EncodedFrom first (row ++ later) ↔
      EncodedFrom first row ∧ EncodedFrom (first + row.length) later := by
  simp only [EncodedFrom, List.zipIdx_append, List.forall_mem_append]

/-- The rows of the opcode map (30_encoding.md R90), each with its first opcode. -/
theorem encodedFrom_opcodeRows :
    EncodedFrom 0x00 opcodeRow0 ∧ EncodedFrom 0x10 opcodeRow1 ∧ EncodedFrom 0x20 opcodeRow2 ∧
    EncodedFrom 0x30 opcodeRow3 ∧ EncodedFrom 0x40 opcodeRow4 ∧ EncodedFrom 0x50 opcodeRow5 ∧
    EncodedFrom 0x60 opcodeRow6 ∧ EncodedFrom 0x70 opcodeRow7 ∧ EncodedFrom 0x80 opcodeRow8 := by
  refine ⟨?_, ?_, ?_, ?_, ?_, ?_, ?_, ?_, ?_⟩
  all_goals simp [EncodedFrom, opcodeRow0, opcodeRow1, opcodeRow2, opcodeRow3, opcodeRow4,
    opcodeRow5, opcodeRow6, opcodeRow7, opcodeRow8, encode]

theorem length_opcodeRows :
    opcodeRow0.length = 16 ∧ opcodeRow1.length = 16 ∧ opcodeRow2.length = 16 ∧
    opcodeRow3.length = 16 ∧ opcodeRow4.length = 16 ∧ opcodeRow5.length = 16 ∧
    opcodeRow6.length = 16 ∧ opcodeRow7.length = 16 :=
  ⟨rfl, rfl, rfl, rfl, rfl, rfl, rfl, rfl⟩

/-- The whole map: the rows follow one another without a hole (30_encoding.md R85). -/
theorem encodedFrom_opcodeTable : EncodedFrom 0 opcodeTable := by
  simpa only [opcodeTable, encodedFrom_append, List.length_append, length_opcodeRows, and_assoc,
    Nat.reduceAdd] using encodedFrom_opcodeRows

theorem encodedBy_of_decodeOp {op : Byte} {shape : Shape} (h : decodeOp op = some shape) :
    shape.EncodedBy op := by
  have hmem : (shape, op.toNat) ∈ opcodeTable.zipIdx := List.mem_zipIdx_iff_getElem?.mpr h
  simpa using encodedFrom_opcodeTable _ hmem

/-- The decoder accepts an instruction with left-over bytes exactly on its encoding followed by them. -/
theorem decode_eq_ok_iff {bytes rest : List Byte} {i : Instr} :
    decode bytes = .ok (i, rest) ↔ bytes = encode i ++ rest := by
  rw [decode_eq_ok_iff_yields]
  constructor
  · rintro ⟨op, operands, shape, rfl, hop, hyields⟩
    rw [encodedBy_of_decodeOp hop operands i hyields]
  · rintro rfl
    obtain ⟨op, operands, shape, hencode, hop, hyields⟩ := exists_decodeOp_yields i
    exact ⟨op, operands, shape, by rw [hencode], hop, hyields⟩

/-- The length of an instruction agrees with its operand (30_encoding.md R80 to R82). -/
theorem Instr.wf_eq_true (i : Instr) : i.wf = true := by
  cases i <;> rfl

/-- Settles O1: the encoding of `i` followed by `rest` is what the decoder reads as `i` and `rest`. -/
theorem encodeThenDecode : Obligations.EncodeThenDecode := fun i _ =>
  ⟨i.wf_eq_true, decode_eq_ok_iff.mpr rfl⟩

/-- Settles O2: the decoder reads `i` and `rest` from the encoding of `i` followed by `rest` only. -/
theorem decodeThenEncode : Obligations.DecodeThenEncode := fun _ _ _ =>
  decode_eq_ok_iff.mp

end Sys2Proof
end

section
/-!
One row of the opcode table: since decoding inverts encoding, a row is settled by the bytes that
`encode` writes and the cycle count. NOP (40_no_operation.md R110) is the first use.
-/

namespace Sys2Proof

theorem length_encode (i : Instr) : (encode i).length = i.length := by
  cases i <;> rfl

namespace Machine

theorem rowIs_iff {i : Instr} {bytes : List Byte} {cycles : Nat} :
    RowIs i bytes cycles ↔ encode i = bytes ∧ i.cycles = cycles := by
  constructor
  · rintro ⟨hencode, -, -, hcycles⟩
    exact ⟨hencode, hcycles⟩
  · rintro ⟨rfl, rfl⟩
    have hdecode : decode (encode i) = .ok (i, []) :=
      decode_eq_ok_iff.mpr (List.append_nil _).symm
    exact ⟨rfl, hdecode, (length_encode i).symm, rfl⟩

theorem exec_nop (m : State) : exec .nop m = .next m := rfl

/-- Settles O19: the row of NOP by its byte and its cycles; its meaning answers the state it is given. -/
theorem nopChangesNothing : Obligations.NopChangesNothing := fun m =>
  ⟨rowIs_iff.mpr ⟨rfl, rfl⟩, exec_nop m⟩

end Machine

end Sys2Proof
end

section
/-!
The data transfers (41_data_transfer.md R120). Each shared operation is settled once for any
instruction whose meaning it is: the registers it leaves, and that memory, the launch image and the
pending events stay. An instruction's row then names its operation and the registers.
-/

namespace Sys2Proof.Machine

/-- The registers a program sees, with a new byte in one of the four that instructions name. -/
def Regs.set (regs : Regs) (r : Reg) (v : Byte) : Regs :=
  match r with
  | .a => { regs with a := v }
  | .b => { regs with b := v }
  | .x => { regs with x := v }
  | .s => { regs with s := v }

@[simp] theorem State.setReg_regs (m : State) (r : Reg) (v : Byte) :
    (m.setReg r v).regs = m.regs.set r v := by
  cases r <;> rfl

theorem State.loadReg_eq (m : State) (r : Reg) (src : Source) :
    m.loadReg r src = (m.operand src).2.setReg r (m.operand src).1 := rfl

@[simp] theorem State.operand_regs (m : State) (src : Source) :
    (m.operand src).2.regs = m.regs := by
  cases src <;> rfl

@[simp] theorem State.operand_mem (m : State) (src : Source) : (m.operand src).2.mem = m.mem := by
  cases src <;> rfl

@[simp] theorem State.operand_image (m : State) (src : Source) :
    (m.operand src).2.image = m.image := by
  cases src <;> rfl

@[simp] theorem State.operand_inputs (m : State) (src : Source) :
    (m.operand src).2.inputs = m.inputs := by
  cases src <;> rfl

theorem rowIs_encode (i : Instr) : RowIs i (encode i) i.cycles :=
  rowIs_iff.mpr ⟨rfl, rfl⟩

/-- An answered state that keeps the memory, the launch image and the events differs from the old one
in nothing else than registers, as far as a program sees. -/
theorem runsTo_of_exec {i : Instr} {m t : State} (hexec : exec i m = .next t)
    (hmem : t.mem = m.mem) (himage : t.image = m.image) (hinputs : t.inputs = m.inputs) :
    RunsTo i m t.regs :=
  ⟨t, hexec, rfl, hinputs, himage, fun adr => by rw [hmem]⟩

theorem runsTo_transfer {i : Instr} {m : State} (src dst : Reg)
    (hexec : exec i m = .next (m.transfer src dst)) : RunsTo i m (m.regs.set dst (m.reg src)) := by
  rw [State.transfer_eq] at hexec
  simpa using runsTo_of_exec hexec (by simp) (by simp) (by simp)

theorem runsTo_exchange {i : Instr} {m : State} (r q : Reg)
    (hexec : exec i m = .next (m.exchange r q)) :
    RunsTo i m ((m.regs.set r (m.reg q)).set q (m.reg r)) := by
  rw [State.exchange_eq] at hexec
  simpa using runsTo_of_exec hexec (by simp) (by simp) (by simp)

theorem runsTo_loadReg {i : Instr} {m : State} (r : Reg) (src : Source)
    (hexec : exec i m = .next (m.loadReg r src)) :
    RunsTo i m (m.regs.set r (m.operand src).1) := by
  rw [State.loadReg_eq] at hexec
  simpa using runsTo_of_exec hexec (by simp) (by simp) (by simp)

/-- A store of a register changes one byte of memory and nothing a program sees of the registers. -/
theorem storesTo_storeReg {i : Instr} {m : State} (r : Reg) (adr : Byte)
    (hexec : exec i m = .next (m.storeReg r adr)) : StoresTo i m m.regs adr (m.reg r) := by
  rw [State.storeReg_eq] at hexec
  exact ⟨_, hexec, rfl, rfl, rfl, Memory.read_write_same .., fun _ =>
    Memory.read_write_other m.mem (m.reg r)⟩

/-- Settles O23: each row is a store of one register at the operand address. -/
theorem storesAbsolute : Obligations.StoresAbsolute := fun _ v =>
  ⟨⟨rowIs_encode (.staAdr v), storesTo_storeReg .a v rfl⟩,
    ⟨rowIs_encode (.stbAdr v), storesTo_storeReg .b v rfl⟩,
    ⟨rowIs_encode (.stxAdr v), storesTo_storeReg .x v rfl⟩,
    ⟨rowIs_encode (.stsAdr v), storesTo_storeReg .s v rfl⟩⟩

/-- Settles O20: four rows copy, two exchange. -/
theorem registerTransfersAndExchanges : Obligations.RegisterTransfersAndExchanges := fun _ =>
  ⟨⟨rowIs_encode .tfrAB, runsTo_transfer .a .b rfl⟩,
    ⟨rowIs_encode .tfrBA, runsTo_transfer .b .a rfl⟩,
    ⟨rowIs_encode .tfrXS, runsTo_transfer .x .s rfl⟩,
    ⟨rowIs_encode .tfrSX, runsTo_transfer .s .x rfl⟩,
    ⟨rowIs_encode .exgAB, runsTo_exchange .a .b rfl⟩,
    ⟨rowIs_encode .exgXS, runsTo_exchange .x .s rfl⟩⟩

/-- Settles O22: four rows load from the operand address, four load the operand itself. -/
theorem loadsAbsoluteAndImmediate : Obligations.LoadsAbsoluteAndImmediate := fun _ v =>
  ⟨⟨rowIs_encode (.ldaAdr v), runsTo_loadReg .a (.adr v) rfl⟩,
    ⟨rowIs_encode (.ldbAdr v), runsTo_loadReg .b (.adr v) rfl⟩,
    ⟨rowIs_encode (.ldxAdr v), runsTo_loadReg .x (.adr v) rfl⟩,
    ⟨rowIs_encode (.ldsAdr v), runsTo_loadReg .s (.adr v) rfl⟩,
    ⟨rowIs_encode (.ldaImm v), runsTo_loadReg .a (.data v) rfl⟩,
    ⟨rowIs_encode (.ldbImm v), runsTo_loadReg .b (.data v) rfl⟩,
    ⟨rowIs_encode (.ldxImm v), runsTo_loadReg .x (.data v) rfl⟩,
    ⟨rowIs_encode (.ldsImm v), runsTo_loadReg .s (.data v) rfl⟩⟩

end Sys2Proof.Machine
end

section
/-!
ADD (43_arithmetic.md R180 to R184), settled once for any instruction whose meaning is `addReg`: the
flags of `add8` without a carry in are those of the closed form, and the rest is one register written.
-/

namespace Sys2Proof.Machine

@[simp] theorem State.operand_reg (m : State) (r : Reg) (src : Source) :
    (m.operand src).2.reg r = m.reg r := by
  cases r <;> cases src <;> rfl

@[simp] theorem State.setFlags_regs (m : State) (f : CC) :
    (m.setFlags f).regs = { m.regs with cc := f } := rfl

/-- H and C of `addFlags` are stated with `≤`, those of `add8` with `<`. -/
theorem add8_flags (p q : Byte) :
    (⟨(add8 p q false).h, flagN (add8 p q false).r, flagZ (add8 p q false).r, (add8 p q false).v,
      (add8 p q false).c⟩ : CC) = addFlags p q := by
  simp [addFlags, Nat.succ_le_iff]

theorem State.addReg_eq (m : State) (r : Reg) (src : Source) :
    m.addReg r src =
      ((m.operand src).2.setReg r (m.reg r + (m.operand src).1)).setFlags
        (addFlags (m.reg r) (m.operand src).1) := by
  rw [State.addReg, add8_flags, add8_r, State.operand_reg]

theorem runsTo_addReg {i : Instr} {m : State} (r : Reg) (src : Source)
    (hexec : exec i m = .next (m.addReg r src)) :
    RunsTo i m { m.regs.set r (m.reg r + (m.operand src).1) with
      cc := addFlags (m.reg r) (m.operand src).1 } := by
  rw [State.addReg_eq] at hexec
  simpa using runsTo_of_exec hexec (by simp) (by simp) (by simp)

/-- Settles O27: each row adds its operand, read from memory or immediate, to one accumulator. -/
theorem addToAccumulator : Obligations.AddToAccumulator := fun _ v =>
  ⟨⟨rowIs_encode (.addaAdr v), runsTo_addReg .a (.adr v) rfl⟩,
    ⟨rowIs_encode (.addaImm v), runsTo_addReg .a (.data v) rfl⟩,
    ⟨rowIs_encode (.addbAdr v), runsTo_addReg .b (.adr v) rfl⟩,
    ⟨rowIs_encode (.addbImm v), runsTo_addReg .b (.data v) rfl⟩⟩

end Sys2Proof.Machine
end

section
/-!
JMP (45_jump.md R242), settled once for any instruction whose meaning is `jump`: PC is the target, and
no other register, no memory and no event changes.
-/

namespace Sys2Proof.Machine

@[simp] theorem State.jump_regs (m : State) (target : Byte) :
    (m.jump target).regs = { m.regs with pc := target } := rfl

theorem runsTo_jump {i : Instr} {m : State} {target : Byte}
    (hexec : exec i m = .next (m.jump target)) : RunsTo i m { m.regs with pc := target } := by
  have hrun := runsTo_of_exec hexec (State.jump_mem ..) (State.jump_image ..) (State.jump_inputs ..)
  rwa [State.jump_regs] at hrun

theorem exec_jmpAdr (m : State) (adr : Byte) : exec (.jmpAdr adr) m = .next (m.jump adr) := rfl

/-- Settles O37: the row of JMP, whose meaning is a jump to the operand. -/
theorem jmpGoesToItsOperand : Obligations.JmpGoesToItsOperand := fun m v =>
  ⟨rowIs_encode (.jmpAdr v), runsTo_jump (exec_jmpAdr m v)⟩

end Sys2Proof.Machine
end

section
/-!
What an instruction does to memory, said once for all instructions (20_memory.md R54): it completes, and
leaves in memory and in MA what the access table says. That nothing stops an instruction, that it stores
nowhere else and that it keeps memory canonical all follow from it.
-/

namespace Sys2Proof.Machine

/-- Memory after an instruction, by the access table: one write at the store address, or none. -/
def memoryAfter (i : Instr) (m : State) : Memory :=
  match storeAddress i m, storedByte i m with
  | some adr, some v => m.mem.write adr v
  | _, _ => m.mem

/-- MA after an instruction, by the access table: the address of the store, else of the last read, else
what it was (10_state.md R31; log 16). -/
def maAfter (i : Instr) (m : State) : Byte :=
  ((storeAddress i m).orElse fun _ => loadAddress i m).getD m.ma

/-- The state differs from the old one in memory and in MA as the access table says, and in nothing of
the launch image and of the events to come. -/
structure AccessesAs (i : Instr) (m t : State) : Prop where
  mem : t.mem = memoryAfter i m
  ma : t.ma = maAfter i m
  image : t.image = m.image
  inputs : t.inputs = m.inputs

/-- Every instruction completes and accesses memory as the table says. The left shifts store what `shl8`
answers, COM stores what `complement` does, a branch is the same with both outcomes, and RTI reads its
last byte at S after four increments. Every other meaning spells out its entry of the table. -/
theorem exec_accesses (i : Instr) (m : State) : ∃ t, exec i m = .next t ∧ AccessesAs i m t := by
  cases i with
  | aslAdr adr | rolAdr adr =>
    exact ⟨_, rfl, congrArg (m.mem.write adr) (shl8_r ..), rfl, rfl, rfl⟩
  | comAdr =>
    exact ⟨_, congrArg Host.Outcome.next (State.complement_adr ..), rfl, rfl, rfl, rfl⟩
  | bmiOffs | bplOffs | beqOffs | bneOffs | bvsOffs | bvcOffs | bcsOffs | bccOffs | bhiOffs
  | blsOffs | bgtOffs | bgeOffs | bleOffs | bltOffs =>
    exact ⟨_, congrArg Host.Outcome.next (State.branchIf_eq ..), rfl, rfl, rfl, rfl⟩
  | rti =>
    have hlast : m.s + 1 + 1 + 1 + 1 = m.s + 4 := by bv_omega
    exact ⟨_, rfl, rfl, hlast, rfl, rfl⟩
  | _ => exact ⟨_, rfl, rfl, rfl, rfl, rfl⟩

theorem accessesAs_of_exec {i : Instr} {m t : State} (h : exec i m = .next t) :
    AccessesAs i m t := by
  obtain ⟨t', ht', haccesses⟩ := exec_accesses i m
  rw [h] at ht'
  cases ht'
  exact haccesses

/-- Settles O7: that an instruction completes is the first half of what it does to memory. -/
theorem everyInstructionCompletes : Obligations.EveryInstructionCompletes := fun i m =>
  let ⟨t, hexec, _⟩ := exec_accesses i m
  ⟨t, hexec⟩

/-- Settles O11: the part of the access table about MA. -/
theorem maHoldsTheLastAccess : Obligations.MaHoldsTheLastAccess := fun _ _ _ hexec =>
  (accessesAs_of_exec hexec).ma

theorem read_memoryAfter_of_ne {i : Instr} {m : State} {adr : Byte}
    (h : storeAddress i m ≠ some adr) : (memoryAfter i m).read adr = m.mem.read adr := by
  unfold memoryAfter
  split
  next stored v hstore _ =>
    have hne : adr ≠ stored := fun heq => h (heq ▸ hstore)
    exact Memory.read_write_other m.mem v hne
  next => rfl

/-- Settles O12: the one write of the access table is at the store address. -/
theorem storesOnlyWhereTheAccessTableSays : Obligations.StoresOnlyWhereTheAccessTableSays := by
  intro i m t hexec
  have haccesses := accessesAs_of_exec hexec
  refine ⟨haccesses.inputs, haccesses.image, fun adr hne => ?_⟩
  rw [haccesses.mem, read_memoryAfter_of_ne hne]

theorem memoryAfter_wf (i : Instr) {m : State} (h : m.mem.wf = true) :
    (memoryAfter i m).wf = true := by
  unfold memoryAfter
  split
  next adr v _ _ => exact Memory.wf_write m.mem adr v h
  next => exact h

end Sys2Proof.Machine
end

section
/-!
One step, read off the bytes at PC (30_encoding.md R84, R86): the instruction they decode to, run on the
state after its fetch, or the fault of an unassigned opcode; or an event of the environment.
-/

namespace Sys2Proof

theorem length_opcodeTable : opcodeTable.length = 0x8A := by
  simp [opcodeTable, length_opcodeRows, opcodeRow8]

/-- The opcodes without a meaning are those from `$8A` on (30_encoding.md R86). -/
theorem decodeOp_eq_none_iff {op : Byte} : decodeOp op = none ↔ 0x8A ≤ op.toNat := by
  rw [decodeOp, List.getElem?_eq_none_iff, length_opcodeTable]

theorem exists_decodeOp_of_lt {op : Byte} (h : op.toNat < 0x8A) :
    ∃ shape, decodeOp op = some shape := by
  cases hop : decodeOp op with
  | none => exact absurd (decodeOp_eq_none_iff.mp hop) (Nat.not_le.mpr h)
  | some shape => exact ⟨shape, rfl⟩

/-- Two bytes are enough for any assigned opcode. -/
theorem exists_decode_of_lt {op : Byte} (next : Byte) (h : op.toNat < 0x8A) :
    ∃ i rest, decode [op, next] = .ok (i, rest) := by
  obtain ⟨shape, hop⟩ := exists_decodeOp_of_lt h
  cases shape with
  | one i => exact ⟨i, [next], by rw [decode, hop]⟩
  | two f => exact ⟨f next, [], by rw [decode, hop]⟩

namespace Machine

/-- The two bytes that a fetch may read (30_encoding.md R84). -/
def State.codeAtPc (m : State) : List Byte :=
  [m.mem.read m.pc, m.mem.read (m.pc + 1)]

/-- The same state with this boundary passed. -/
def State.passBoundary (m : State) : State :=
  { m with inputs := m.inputs.tail }

theorem step_of_runsNext {m : State} (h : m.runsNext = true) :
    step m = m.passBoundary.runInstruction := by
  obtain ⟨a, b, x, s, pc, cc, mem, image, ma, draws, inputs⟩ := m
  match inputs, h with
  | [], _ => rfl
  | .run :: _, _ => rfl

theorem State.fetch_of_one {m : State} {i : Instr}
    (h : decodeOp (m.mem.read m.pc) = some (.one i)) : m.fetch = .ok (i, m.fetchByte.2) := by
  simp [State.fetch, h]

theorem State.fetch_of_two {m : State} {f : Byte → Instr}
    (h : decodeOp (m.mem.read m.pc) = some (.two f)) :
    m.fetch = .ok (f (m.mem.read (m.pc + 1)), m.fetchByte.2.fetchByte.2) := by
  simp [State.fetch, h]

theorem State.fetch_of_none {m : State} (h : decodeOp (m.mem.read m.pc) = none) :
    m.fetch = .error (.illegalOpcode (m.mem.read m.pc)) := by
  simp [State.fetch, h]

/-- The fetch of an instruction leaves the state that `fetched` names: PC after the bytes of the
instruction, MA at the last of them. -/
theorem State.fetch_of_decode {m : State} {i : Instr} {rest : List Byte}
    (h : decode m.codeAtPc = .ok (i, rest)) : m.passBoundary.fetch = .ok (i, m.fetched i) := by
  obtain ⟨op, operands, shape, hbytes, hop, hyields⟩ := decode_eq_ok_iff_yields.mp h
  have hlength : i.length = (op :: operands).length := by
    rw [← length_encode, encodedBy_of_decodeOp hop operands i hyields]
  obtain ⟨rfl, htail⟩ := List.cons.inj hbytes
  cases hyields with
  | one =>
    have hlast : m.pc = m.pc + BitVec.ofNat 8 0 := (BitVec.add_zero m.pc).symm
    rw [State.fetch_of_one (m := m.passBoundary) hop, State.fetched, hlength]
    exact congrArg (fun ma => Except.ok (i, { m.passBoundary with pc := m.pc + 1, ma })) hlast
  | two f operand =>
    obtain ⟨rfl, -⟩ := List.cons.inj htail
    have hnext : m.pc + 1 + 1 = m.pc + BitVec.ofNat 8 2 := BitVec.add_assoc ..
    rw [State.fetch_of_two (m := m.passBoundary) hop, State.fetched, hlength]
    exact congrArg (fun pc => Except.ok (_, { m.passBoundary with pc, ma := m.pc + 1 })) hnext

/-- Settles O5: the step passes the boundary and fetches, and the fetch answers the decoded
instruction. -/
theorem stepRunsTheDecodedInstruction : Obligations.StepRunsTheDecodedInstruction := by
  intro m i rest hruns hdecode
  refine ⟨i.wf_eq_true, ?_⟩
  rw [step_of_runsNext hruns, State.runInstruction, State.fetch_of_decode hdecode]

theorem step_of_decode {m : State} {i : Instr} {rest : List Byte} (hruns : m.runsNext = true)
    (hdecode : decode m.codeAtPc = .ok (i, rest)) : step m = exec i (m.fetched i) :=
  (stepRunsTheDecodedInstruction m i rest hruns hdecode).2

theorem step_of_unassigned {m : State} (hruns : m.runsNext = true)
    (hop : 0x8A ≤ (m.mem.read m.pc).toNat) : step m = .fault (.illegalOpcode (m.mem.read m.pc)) := by
  rw [step_of_runsNext hruns, State.runInstruction,
    State.fetch_of_none (m := m.passBoundary) (decodeOp_eq_none_iff.mpr hop)]
  rfl

/-- What a step can be: the fault of an unassigned opcode, an instruction that the bytes at PC decode
to, an interrupt entry, a RESET, or an entry that RESET breaks. -/
inductive StepIs (m : State) : Result → Prop where
  | unassigned (hruns : m.runsNext = true) (hop : 0x8A ≤ (m.mem.read m.pc).toNat) :
    StepIs m (.fault (.illegalOpcode (m.mem.read m.pc)))
  | instruction {i : Instr} {rest : List Byte} {t : State} (hruns : m.runsNext = true)
    (hdecode : decode m.codeAtPc = .ok (i, rest)) (hexec : exec i (m.fetched i) = .next t) :
    StepIs m (.next t)
  | irq {later : List Input} (h : m.inputs = .irq :: later) :
    StepIs m (.next m.passBoundary.takeIrq)
  | reset {later : List Input} (h : m.inputs = .reset :: later) :
    StepIs m (.next m.passBoundary.takeReset)
  | cutIrq {pushes : Nat} {later : List Input} (h : m.inputs = .resetInEntry pushes :: later) :
    StepIs m (.next (m.passBoundary.cutIrqByReset pushes))

theorem stepIs_of_runsNext {m : State} (hruns : m.runsNext = true) : StepIs m (step m) := by
  by_cases hop : 0x8A ≤ (m.mem.read m.pc).toNat
  · rw [step_of_unassigned hruns hop]
    exact .unassigned hruns hop
  · obtain ⟨i, rest, hdecode⟩ := exists_decode_of_lt (m.mem.read (m.pc + 1)) (Nat.not_le.mp hop)
    obtain ⟨t, hexec⟩ := everyInstructionCompletes i (m.fetched i)
    rw [step_of_decode hruns hdecode, hexec]
    exact .instruction hruns hdecode hexec

theorem step_of_inputs_irq {m : State} {later : List Input} (h : m.inputs = .irq :: later) :
    step m = .next m.passBoundary.takeIrq := by
  simp only [step, State.passBoundary, h, List.tail_cons]

theorem step_of_inputs_reset {m : State} {later : List Input} (h : m.inputs = .reset :: later) :
    step m = .next m.passBoundary.takeReset := by
  simp only [step, State.passBoundary, h, List.tail_cons]

theorem step_of_inputs_resetInEntry {m : State} {later : List Input} {pushes : Nat}
    (h : m.inputs = .resetInEntry pushes :: later) :
    step m = .next (m.passBoundary.cutIrqByReset pushes) := by
  simp only [step, State.passBoundary, h, List.tail_cons]

theorem stepIs (m : State) : StepIs m (step m) := by
  match h : m.inputs with
  | [] | .run :: _ => exact stepIs_of_runsNext (by rw [State.runsNext, h])
  | .irq :: _ => exact step_of_inputs_irq h ▸ .irq h
  | .reset :: _ => exact step_of_inputs_reset h ▸ .reset h
  | .resetInEntry _ :: _ => exact step_of_inputs_resetInEntry h ▸ .cutIrq h

/-- Settles O8: an instruction writes one byte or none, an interrupt entry writes five, and RESET makes
memory anew. -/
theorem stepKeepsMemoryCanonical : Obligations.StepKeepsMemoryCanonical := by
  intro m t hwf hstep
  have hcases := stepIs m
  rw [hstep] at hcases
  cases hcases with
  | @instruction i _ _ _ _ hexec =>
    rw [(accessesAs_of_exec hexec).mem]
    exact memoryAfter_wf i hwf
  | irq => exact State.takeIrq_wf m.passBoundary hwf
  | reset => exact State.takeReset_wf m.passBoundary
  | @cutIrq pushes _ _ => exact State.cutIrqByReset_wf m.passBoundary pushes

/-- Settles O9: no byte is listed after reset. -/
theorem resetMemoryIsCanonical : Obligations.ResetMemoryIsCanonical := rfl

/-- Settles O6: of the five things a step can be, only the fetch of an unassigned opcode is a fault; the
instructions complete by O7. -/
theorem onlyAnUnassignedOpcodeStops : Obligations.OnlyAnUnassignedOpcodeStops := by
  intro m
  split
  next h => exact step_of_unassigned h.1 h.2
  next h =>
    generalize step m = result, stepIs m = hcases
    cases hcases with
    | unassigned hruns hop => exact absurd ⟨hruns, hop⟩ h
    | instruction | irq | reset | cutIrq => exact ⟨_, rfl⟩

/-- RESET leaves nothing of the MA that pushes leave. -/
theorem State.takeReset_pushAll_ma (vs : List Byte) (m : State) (v : Byte) :
    (State.pushAll vs { m with ma := v }).takeReset = (State.pushAll vs m).takeReset := by
  cases vs <;> rfl

theorem State.cutIrqByReset_ma (m : State) (v : Byte) (pushes : Nat) :
    ({ m with ma := v }).cutIrqByReset pushes = m.cutIrqByReset pushes :=
  State.takeReset_pushAll_ma (m.irqFrame.1.take pushes) m.irqFrame.2 v

/-- Every step starts with an access or with a RESET, which give MA a new value, so the old one is
read by nothing. -/
theorem step_ma (m : State) (v : Byte) : step { m with ma := v } = step m := by
  obtain ⟨a, b, x, s, pc, cc, mem, image, ma, draws, inputs⟩ := m
  match inputs with
  | [] | .run :: _ | .irq :: _ | .reset :: _ => rfl
  | .resetInEntry pushes :: later =>
    exact congrArg Host.Outcome.next
      (State.cutIrqByReset_ma ⟨a, b, x, s, pc, cc, mem, image, ma, draws, later⟩ v pushes)

/-- Settles O10: the two steps are the same, MA included. -/
theorem maIsNotObservable : Obligations.MaIsNotObservable := by
  intro m v
  rw [step_ma m v]
  cases step m with
  | next t => exact ⟨t.ma, rfl⟩
  | fault | refused => rfl

end Machine
end Sys2Proof
end

section
/-!
What follows from reading a step off the bytes at PC: a store is seen by the next fetch (20_memory.md
R61), and a jump to itself ends a run (70_reset_and_hazards.md R356).
-/

namespace Sys2Proof.Machine

/-- Settles O60: memory after the step is one write, so the bytes at the next PC are the byte stored, or
those of the old memory. -/
theorem storeIsSeenByTheNextFetch : Obligations.StoreIsSeenByTheNextFetch := by
  intro m i rest adr v hruns hdecode hadr hv
  obtain ⟨t, hexec, haccesses⟩ := exec_accesses i (m.fetched i)
  have hmem : t.mem = m.mem.write adr v := by
    rw [haccesses.mem, memoryAfter, hadr, hv]
    rfl
  refine ⟨t, (step_of_decode hruns hdecode).trans hexec, haccesses.inputs, ?_⟩
  intro j rest2 hruns2 hdecode2
  refine step_of_decode (rest := rest2) hruns2 ?_
  rw [State.codeAtPc, hmem, Memory.read_write, Memory.read_write]
  exact hdecode2

theorem State.atEndOfRun_congr {m t : State} (hpc : t.pc = m.pc) (hmem : t.mem = m.mem)
    (h : m.atEndOfRun) : t.atEndOfRun := by
  rwa [State.atEndOfRun, hpc, hmem]

theorem State.runsNext_of_inputs_nil {m : State} (h : m.inputs = []) : m.runsNext = true := by
  rw [State.runsNext, h]

theorem exec_braOffs (m : State) (offs : Byte) :
    exec (.braOffs offs) m = .next (m.jump (m.pc + offs)) := rfl

/-- The two loops of the convention jump back to where they were fetched: JMP by its operand, BRA by
adding `$FE` to PC two bytes on. -/
theorem step_atEndOfRun {m : State} (hinputs : m.inputs = []) (hend : m.atEndOfRun) :
    ∃ t, step m = .next t ∧ t.regs = m.regs ∧ t.mem = m.mem ∧ t.inputs = [] := by
  have hruns := State.runsNext_of_inputs_nil hinputs
  have htail : m.inputs.tail = [] := by rw [hinputs, List.tail_nil]
  rcases hend with ⟨hop, hoperand⟩ | ⟨hop, hoperand⟩
  · have hdecode : decode m.codeAtPc = .ok (.jmpAdr m.pc, []) := by
      rw [State.codeAtPc, hop, hoperand]
      rfl
    have hexec := exec_jmpAdr (m.fetched (.jmpAdr m.pc)) m.pc
    exact ⟨_, (step_of_decode hruns hdecode).trans hexec, rfl, rfl, htail⟩
  · have hdecode : decode m.codeAtPc = .ok (.braOffs 0xFE, []) := by
      rw [State.codeAtPc, hop, hoperand]
      rfl
    have hexec := exec_braOffs (m.fetched (.braOffs 0xFE)) 0xFE
    have hback : m.pc + BitVec.ofNat 8 2 + 0xFE = m.pc := by bv_omega
    have hregs := congrArg (fun pc => { m.regs with pc }) hback
    exact ⟨_, (step_of_decode hruns hdecode).trans hexec, hregs, rfl, htail⟩

/-- Settles O59: by induction on the number of steps, each of which leaves all that the convention looks
at. -/
theorem endOfRunIsFinal : Obligations.EndOfRunIsFinal := by
  intro k m hinputs hend
  induction k generalizing m with
  | zero => exact ⟨m, rfl, rfl, rfl, hinputs, hend⟩
  | succ k ih =>
    obtain ⟨t, hstep, hregs, hmem, hinputs'⟩ := step_atEndOfRun hinputs hend
    have hend' := State.atEndOfRun_congr (congrArg Regs.pc hregs) hmem hend
    obtain ⟨u, hrun, hregs2, hmem2, hinputs2, hend2⟩ := ih t hinputs' hend'
    refine ⟨u, ?_, hregs2.trans hregs, hmem2.trans hmem, hinputs2, hend2⟩
    rw [runSteps, hstep]
    exact hrun

end Sys2Proof.Machine
end

section
/-!
The access matrix of the registers and flags (10_state.md R41), read off the meanings for all
instructions at once.
-/

namespace Sys2Proof.Machine

/-- Each register, and CC, is what it was unless its column of the access matrix has the instruction. -/
structure WritesAs (i : Instr) (m t : State) : Prop where
  a : t.a = bif writesA i then t.a else m.a
  b : t.b = bif writesB i then t.b else m.b
  x : t.x = bif writesX i then t.x else m.x
  s : t.s = bif writesS i then t.s else m.s
  pc : t.pc = bif writesPc i then t.pc else m.pc
  cc : t.cc = bif writesFlags i then t.cc else m.cc

/-- Every meaning spells out its row of the access matrix: a branch with both outcomes, and an operation
on a memory byte as the store and the flags that it is. -/
theorem exec_writesAs (i : Instr) (m : State) : ∃ t, exec i m = .next t ∧ WritesAs i m t := by
  cases i with
  | bmiOffs | bplOffs | beqOffs | bneOffs | bvsOffs | bvcOffs | bcsOffs | bccOffs | bhiOffs
  | blsOffs | bgtOffs | bgeOffs | bleOffs | bltOffs =>
    exact ⟨_, congrArg Host.Outcome.next (State.branchIf_eq ..), rfl, rfl, rfl, rfl, rfl, rfl⟩
  | comAdr =>
    exact ⟨_, congrArg Host.Outcome.next (State.complement_adr ..), rfl, rfl, rfl, rfl, rfl, rfl⟩
  | negAdr | aslAdr | rolAdr | incAdr | decAdr =>
    exact ⟨_, congrArg Host.Outcome.next (State.inPlace_adr ..), rfl, rfl, rfl, rfl, rfl, rfl⟩
  | _ => exact ⟨_, rfl, rfl, rfl, rfl, rfl, rfl, rfl⟩

theorem eq_old_of_not_written {α : Type} {written : Bool} {new old : α}
    (h : new = bif written then new else old) (hwritten : written = false) : new = old := by
  rwa [hwritten, cond_false] at h

/-- Settles O13: column by column. -/
theorem writesOnlyWhatTheAccessMatrixSays : Obligations.WritesOnlyWhatTheAccessMatrixSays := by
  intro i m t hexec
  obtain ⟨t', ht', hwrites⟩ := exec_writesAs i m
  obtain rfl : t = t' := by simpa [hexec] using ht'
  exact ⟨eq_old_of_not_written hwrites.a, eq_old_of_not_written hwrites.b,
    eq_old_of_not_written hwrites.x, eq_old_of_not_written hwrites.s,
    eq_old_of_not_written hwrites.pc, eq_old_of_not_written hwrites.cc⟩

end Sys2Proof.Machine
end

section
/-!
The decoder accepts exactly the assigned opcodes with their number of bytes (30_encoding.md R86, R91):
the opcode map and the list of two-byte opcodes agree on which opcodes take an operand.
-/

namespace Sys2Proof

theorem codeWf_encode (i : Instr) : codeWf (encode i) = true := by
  cases i <;> rfl

/-- The shape is of format F2 (30_encoding.md R82). -/
def Shape.takesOperand : Shape → Bool
  | .one _ => false
  | .two _ => true

/-- Opcode by opcode, the map and the list of two-byte opcodes agree. -/
theorem takesOperand_opcodeTable :
    opcodeTable.map Shape.takesOperand =
      (List.range 0x8A).map fun op => opcodeHasOperand (BitVec.ofNat 8 op) := by
  decide

theorem takesOperand_of_decodeOp {op : Byte} {shape : Shape} (h : decodeOp op = some shape) :
    shape.takesOperand = opcodeHasOperand op := by
  have hop := congrArg (·[op.toNat]?) takesOperand_opcodeTable
  have hlt : op.toNat < 0x8A := by
    by_contra hge
    rw [decodeOp_eq_none_iff.mpr (Nat.not_lt.mp hge)] at h
    cases h
  rw [decodeOp] at h
  simpa [h, hlt] using hop

theorem exists_shape_of_opcodeAssigned {op : Byte} {takes : Bool} (h : opcodeAssigned op = true)
    (htakes : opcodeHasOperand op = takes) :
    ∃ shape, decodeOp op = some shape ∧ shape.takesOperand = takes := by
  obtain ⟨shape, hop⟩ := exists_decodeOp_of_lt (of_decide_eq_true h)
  exact ⟨shape, hop, (takesOperand_of_decodeOp hop).trans htakes⟩

/-- Well-formed code decodes as one instruction. -/
theorem exists_decode_of_codeWf {bytes : List Byte} (h : codeWf bytes = true) :
    ∃ i, decode bytes = .ok (i, []) := by
  match bytes, h with
  | [op], h =>
    simp only [codeWf, Bool.and_eq_true, Bool.not_eq_true'] at h
    match exists_shape_of_opcodeAssigned h.1 h.2 with
    | ⟨.one i, hop, _⟩ => exact ⟨i, by rw [decode, hop]⟩
  | [op, operand], h =>
    simp only [codeWf, Bool.and_eq_true] at h
    match exists_shape_of_opcodeAssigned h.1 h.2 with
    | ⟨.two f, hop, _⟩ => exact ⟨f operand, by rw [decode, hop]⟩

/-- Settles O3: what decodes is an encoding, and encodings are well formed; well-formed code has the
shape that the map gives its opcode. -/
theorem decodeAcceptsExactlyTheAssignedCode : Obligations.DecodeAcceptsExactlyTheAssignedCode := by
  intro bytes
  constructor
  · rintro ⟨i, hdecode⟩
    rw [decode_eq_ok_iff.mp hdecode, List.append_nil]
    exact codeWf_encode i
  · exact exists_decode_of_codeWf

/-- Settles O4: the map at these opcodes. -/
theorem knownWordsDecode : Obligations.KnownWordsDecode :=
  ⟨rfl, rfl, rfl, rfl, rfl, rfl, rfl, rfl, rfl, rfl, rfl, rfl, rfl, rfl⟩

end Sys2Proof
end

section
/-!
What `sub8` and `shl8` answer (00_scope.md R12, R13), in the forms of the statements: the exact signed
result out of range, and the same read off bits.
-/

namespace Sys2Proof.Machine

theorem sub8_r_toNat (p q : Byte) :
    ((sub8 p q).r.toNat : Int) = ((p.toNat : Int) - q.toNat) % 256 := by
  rw [sub8_r, BitVec.toNat_sub]
  omega

theorem sub8_v_iff (p q : Byte) :
    (sub8 p q).v = true ↔ p.toInt - q.toInt < -128 ∨ 127 < p.toInt - q.toInt := by
  rw [sub8_v, decide_eq_true_eq]

/-- V is the library's signed overflow, whose bit form is known. -/
theorem sub8_v_eq_ssubOverflow (p q : Byte) : (sub8 p q).v = p.ssubOverflow q := by
  rw [sub8_v, BitVec.ssubOverflow, ← Bool.decide_or]
  apply decide_eq_decide.mpr
  omega

theorem sub8_v_iff_bit7 (p q : Byte) :
    (sub8 p q).v = true ↔ p.getLsbD 7 ≠ q.getLsbD 7 ∧ (sub8 p q).r.getLsbD 7 ≠ p.getLsbD 7 := by
  have hmsb (v : Byte) : v.getLsbD 7 = v.msb := (BitVec.msb_eq_getLsbD_last v).symm
  rw [sub8_v_eq_ssubOverflow, BitVec.ssubOverflow_eq, sub8_r, hmsb, hmsb, hmsb]
  cases p.msb <;> cases q.msb <;> simp

theorem sub8_c_iff (p q : Byte) : (sub8 p q).c = true ↔ p.toNat < q.toNat := by
  rw [sub8_c, decide_eq_true_eq]

/-- Settles O16: one lemma for each component of the difference. -/
theorem subtractionAndItsFlags : Obligations.SubtractionAndItsFlags := fun p q =>
  ⟨sub8_r_toNat p q, sub8_v_iff p q, sub8_v_iff_bit7 p q, sub8_c_iff p q⟩

theorem getLsbD_eq_decide_div (v : Byte) (k : Nat) : v.getLsbD k = decide (v.toNat / 2 ^ k % 2 = 1) := by
  rw [BitVec.getLsbD, Nat.testBit_eq_decide_div_mod_eq]

/-- The doubled value leaves the signed range exactly when the two top bits differ. -/
theorem shl8_v_iff (p : Byte) (cin : Bool) :
    (shl8 p cin).v = true ↔ 2 * p.toInt + cin.toNat < -128 ∨ 127 < 2 * p.toInt + cin.toNat := by
  have hcin := Bool.toNat_le cin
  simp only [shl8, getLsbD_eq_decide_div, bne_iff_ne, ne_eq, decide_eq_decide,
    BitVec.toInt_eq_toNat_cond]
  split <;> omega

theorem shl8_r_toNat (p : Byte) (cin : Bool) :
    (shl8 p cin).r.toNat = (2 * p.toNat + cin.toNat) % 256 :=
  BitVec.toNat_ofNat ..

/-- V is bit 7 of the result xor the bit shifted out. -/
theorem shl8_v_eq_xor (p : Byte) (cin : Bool) :
    (shl8 p cin).v = ((shl8 p cin).r.getLsbD 7 ^^ (shl8 p cin).c) := by
  have hcin := Bool.toNat_le cin
  have hbit : (shl8 p cin).r.getLsbD 7 = p.getLsbD 6 := by
    rw [getLsbD_eq_decide_div, getLsbD_eq_decide_div, shl8_r_toNat, decide_eq_decide]
    omega
  rw [hbit, Bool.xor_comm]
  rfl

/-- Settles O17: one lemma for each component of the shift. -/
theorem leftShiftAndItsFlags : Obligations.LeftShiftAndItsFlags := fun p cin =>
  ⟨shl8_r_toNat p cin, rfl, shl8_v_iff p cin, shl8_v_eq_xor p cin⟩

end Sys2Proof.Machine
end

section
/-!
The byte image of CC (00_scope.md R14, R15): which bit is which flag. The round trip, the transfers
through the image (41_data_transfer.md R120), ANDCC and ORCC (42_logic.md R166, R167) follow bit by bit.
-/

namespace Sys2Proof.Machine

theorem getLsbD_flagImage (f : Config.Flag) (value : Bool) (k : Nat) :
    (flagImage f value).getLsbD k = (decide (k = Config.ccBit f) && value) := by
  cases value with
  | false => simp [flagImage]
  | true =>
    have hbit : Config.ccBit f < 8 := by cases f <;> decide
    rw [flagImage, if_pos rfl, ← BitVec.twoPow_eq, BitVec.getLsbD_twoPow]
    simp [hbit, eq_comm]

@[simp] theorem getElem_flagImage (f : Config.Flag) (value : Bool) {k : Nat} (h : k < 8) :
    (flagImage f value)[k] = (decide (k = Config.ccBit f) && value) :=
  getLsbD_flagImage f value k

theorem ccMask_eq : ccMask = 0x1F := rfl

/-- The flag of CC with this name. -/
def CC.get (f : CC) : Config.Flag → Bool
  | .h => f.h
  | .n => f.n
  | .z => f.z
  | .v => f.v
  | .c => f.c

/-- The image holds each flag at its place, whatever the unused bits are. -/
@[simp] theorem getLsbD_ccToByte (f : CC) (u : Byte) (flag : Config.Flag) :
    (ccToByte f u).getLsbD (Config.ccBit flag) = f.get flag := by
  cases flag <;> simp [ccToByte, ccMask_eq, Config.ccBit, CC.get]

theorem byteToCC_eq (v : Byte) :
    byteToCC v = ⟨v.getLsbD 4, v.getLsbD 3, v.getLsbD 2, v.getLsbD 1, v.getLsbD 0⟩ := rfl

/-- Setting the flags from their image gives them back. -/
@[simp] theorem byteToCC_ccToByte (f : CC) (u : Byte) : byteToCC (ccToByte f u) = f := by
  simp only [byteToCC, getLsbD_ccToByte]
  rfl

/-- A flag added where the byte has a zero bit is the flag put in. -/
theorem add_flagImage {x : Byte} {flag : Config.Flag} (value : Bool)
    (h : x.getLsbD (Config.ccBit flag) = false) :
    x + flagImage flag value = x ||| flagImage flag value := by
  apply BitVec.add_eq_or_of_and_eq_zero
  cases value with
  | false => simp [flagImage]
  | true =>
    rw [flagImage, if_pos rfl, ← BitVec.twoPow_eq, BitVec.and_twoPow, h, if_neg Bool.false_ne_true]

/-- The image as a sum: the places do not overlap. -/
theorem ccToByte_eq_sum (f : CC) (u : Byte) :
    ccToByte f u = (u &&& 0xE0) + flagImage .h f.h + flagImage .n f.n + flagImage .z f.z +
      flagImage .v f.v + flagImage .c f.c := by
  rw [add_flagImage (flag := .h), add_flagImage (flag := .n), add_flagImage (flag := .z),
    add_flagImage (flag := .v), add_flagImage (flag := .c), ccToByte, ccMask_eq]
  · ac_rfl
  all_goals simp [Config.ccBit]

/-- Settles O18: the round trip, the layout as a sum, and the definition of `byteToCC`. -/
theorem ccImageRoundTrip : Obligations.CcImageRoundTrip := fun f u v =>
  ⟨byteToCC_ccToByte f u, ccToByte_eq_sum f u, byteToCC_eq v⟩

theorem runsTo_writeCC {i : Instr} {m : State} {v : Byte}
    (hexec : exec i m = .next (m.writeCC v)) : RunsTo i m { m.regs with cc := byteToCC v } :=
  runsTo_of_exec hexec (State.writeCC_mem ..) (State.writeCC_image ..) (State.writeCC_inputs ..)

/-- The register takes the image of the flags, the flags take the register. -/
theorem runsTo_exchangeCC {i : Instr} {m : State} (r : Reg)
    (hexec : exec i m = .next (m.exchangeCC r)) :
    ∃ u, RunsTo i m
      ({ m.regs with cc := byteToCC (m.reg r) }.set r (ccToByte m.cc u)) := by
  rw [State.exchangeCC_eq] at hexec
  have hrun := runsTo_of_exec hexec (by simp) (by simp) (by simp)
  rw [State.setReg_regs] at hrun
  exact ⟨_, hrun⟩

/-- Settles O21: TFR A,CC sets the flags, TFR CC,A reads their image, the two EXG do both. -/
theorem ccTransfersAndExchanges : Obligations.CcTransfersAndExchanges := fun m =>
  ⟨⟨rowIs_encode .tfrACC, runsTo_writeCC rfl⟩,
    ⟨rowIs_encode .tfrCCA, _,
      runsTo_of_exec (t := m.readCC.2.setReg .a m.readCC.1) rfl rfl rfl rfl⟩,
    ⟨rowIs_encode .exgACC, runsTo_exchangeCC .a rfl⟩,
    ⟨rowIs_encode .exgBCC, runsTo_exchangeCC .b rfl⟩⟩

theorem byteToCC_ccToByte_and (f : CC) (u v : Byte) :
    byteToCC (ccToByte f u &&& v) =
      ⟨f.h && v.getLsbD 4, f.n && v.getLsbD 3, f.z && v.getLsbD 2, f.v && v.getLsbD 1,
        f.c && v.getLsbD 0⟩ := by
  simp only [byteToCC, BitVec.getLsbD_and, getLsbD_ccToByte]
  rfl

theorem byteToCC_ccToByte_or (f : CC) (u v : Byte) :
    byteToCC (ccToByte f u ||| v) =
      ⟨f.h || v.getLsbD 4, f.n || v.getLsbD 3, f.z || v.getLsbD 2, f.v || v.getLsbD 1,
        f.c || v.getLsbD 0⟩ := by
  simp only [byteToCC, BitVec.getLsbD_or, getLsbD_ccToByte]
  rfl

/-- Settles O26: both write CC from the masked image, flag by flag. -/
theorem andccAndOrccMaskTheFlags : Obligations.AndccAndOrccMaskTheFlags := fun m v =>
  ⟨⟨rowIs_encode (.andccImm v), byteToCC_ccToByte_and m.cc 0 v ▸ runsTo_writeCC rfl⟩,
    ⟨rowIs_encode (.orccImm v), byteToCC_ccToByte_or m.cc 0 v ▸ runsTo_writeCC rfl⟩⟩

end Sys2Proof.Machine
end

section
/-!
The instructions that set flags from a result (42_logic.md R150, 43_arithmetic.md R180, 44_test.md
R220). Each shared operation is settled once: the registers and flags it leaves, one of them any value,
and the byte it stores, if any. The rows then name their operation and its operands.
-/

namespace Sys2Proof.Machine

/-- An answered state whose memory is one write differs from the old one in that byte and in registers,
as far as a program sees. -/
theorem storesTo_of_exec {i : Instr} {m t : State} {adr v : Byte} (hexec : exec i m = .next t)
    (hmem : t.mem = m.mem.write adr v) (himage : t.image = m.image)
    (hinputs : t.inputs = m.inputs) : StoresTo i m t.regs adr v := by
  refine ⟨t, hexec, rfl, hinputs, himage, ?_, fun other hne => ?_⟩
  · rw [hmem, Memory.read_write_same]
  · rw [hmem, Memory.read_write_other m.mem v hne]

/-- N and Z of a result, with V and C as computed and H as given (00_scope.md R10). -/
def ArithResult.flags (res : ArithResult) (h : Bool) : CC :=
  ⟨h, res.r.msb, decide (res.r = 0), res.v, res.c⟩

theorem State.flagsDrawH_regs (m : State) (res : ArithResult) :
    (m.flagsDrawH res.r res.v res.c).regs =
      { m.regs with cc := res.flags (Config.undefFlag m.draws) } := by
  rw [ArithResult.flags, ← flagN_eq_msb, ← flagZ_eq_decide]
  rfl

theorem State.flagsDrawHC_regs (m : State) (r : Byte) :
    (m.flagsDrawHC r).regs = { m.regs with
      cc := ⟨Config.undefFlag m.draws, r.msb, decide (r = 0), false,
        Config.undefFlag (m.draws + 1)⟩ } := by
  rw [← flagN_eq_msb, ← flagZ_eq_decide]
  rfl

theorem State.flagsClear_regs (m : State) :
    m.flagsClear.regs =
      { m.regs with cc := ⟨false, false, true, Config.undefFlag m.draws, false⟩ } := rfl

/-- An operation that may write registers and then sets the flags of a result. -/
theorem runsTo_flagsDrawH {i : Instr} {m n : State} {regs : Regs} {flags : Bool → CC}
    (res : ArithResult) (hexec : exec i m = .next (n.flagsDrawH res.r res.v res.c))
    (hflags : ∀ h, res.flags h = flags h) (hregs : n.regs = regs) (hmem : n.mem = m.mem)
    (himage : n.image = m.image) (hinputs : n.inputs = m.inputs) :
    ∃ h, RunsTo i m { regs with cc := flags h } := by
  have hrun := runsTo_of_exec hexec hmem himage hinputs
  rw [State.flagsDrawH_regs, hflags, hregs] at hrun
  exact ⟨_, hrun⟩

/-- An operation that stores its result and then sets the flags of it. -/
theorem storesTo_flagsDrawH {i : Instr} {m : State} {adr v : Byte} {flags : Bool → CC}
    (res : ArithResult)
    (hexec : exec i m = .next ((m.store adr res.r).flagsDrawH res.r res.v res.c))
    (hflags : ∀ h, res.flags h = flags h) (hr : res.r = v) :
    ∃ h, StoresTo i m { m.regs with cc := flags h } adr v := by
  have hrun := storesTo_of_exec (adr := adr) (v := res.r) hexec rfl rfl rfl
  rw [State.flagsDrawH_regs, hflags, hr] at hrun
  exact ⟨_, hrun⟩

theorem runsTo_logicReg {i : Instr} {m : State} {op : Byte → Byte → Byte} (r : Reg) (src : Source)
    (hexec : exec i m = .next (m.logicReg op r src)) :
    ∃ h, RunsTo i m { m.regs.set r (op (m.reg r) (m.operand src).1) with
      cc := logicFlags h (op (m.reg r) (m.operand src).1) } := by
  rw [State.logicReg, State.operand_reg] at hexec
  exact runsTo_flagsDrawH ⟨op (m.reg r) (m.operand src).1, false, false⟩ hexec (fun _ => rfl)
    (by simp) (by simp) (by simp) (by simp)

theorem runsTo_bitTest {i : Instr} {m : State} (r : Reg) (src : Source)
    (hexec : exec i m = .next (m.bitTest r src)) :
    ∃ h, RunsTo i m { m.regs with cc := logicFlags h (m.reg r &&& (m.operand src).1) } := by
  rw [State.bitTest, State.operand_reg] at hexec
  exact runsTo_flagsDrawH ⟨m.reg r &&& (m.operand src).1, false, false⟩ hexec (fun _ => rfl)
    (by simp) (by simp) (by simp) (by simp)

theorem runsTo_testPlace {i : Instr} {m : State} (p : Place)
    (hexec : exec i m = .next (m.testPlace p)) :
    ∃ h, RunsTo i m { m.regs with cc := logicFlags h (m.readPlace p).1 } := by
  cases p with
  | reg r =>
    exact runsTo_flagsDrawH (n := m) ⟨m.reg r, false, false⟩ hexec (fun _ => rfl) rfl rfl rfl rfl
  | adr a =>
    exact runsTo_flagsDrawH (n := (m.load a).2) ⟨m.mem.read a, false, false⟩ hexec (fun _ => rfl)
      rfl rfl rfl rfl

/-- `subFlags` says that the operands are equal where `sub8` says that the difference is zero. -/
theorem sub8_flags (p q : Byte) (h : Bool) : (sub8 p q).flags h = subFlags h p q := by
  have hzero : p - q = 0 ↔ p = q := by bv_omega
  rw [ArithResult.flags, sub8_r, sub8_v, sub8_c, decide_eq_decide.mpr hzero, subFlags]

theorem runsTo_subReg {i : Instr} {m : State} (r : Reg) (src : Source)
    (hexec : exec i m = .next (m.subReg r src)) :
    ∃ h, RunsTo i m { m.regs.set r (m.reg r - (m.operand src).1) with
      cc := subFlags h (m.reg r) (m.operand src).1 } := by
  rw [State.subReg, State.operand_reg] at hexec
  exact runsTo_flagsDrawH (sub8 (m.reg r) (m.operand src).1) hexec (sub8_flags _ _)
    (by simp) (by simp) (by simp) (by simp)

theorem runsTo_compareReg {i : Instr} {m : State} (r : Reg) (src : Source)
    (hexec : exec i m = .next (m.compareReg r src)) :
    ∃ h, RunsTo i m { m.regs with cc := subFlags h (m.reg r) (m.operand src).1 } := by
  rw [State.compareReg, State.operand_reg] at hexec
  exact runsTo_flagsDrawH (sub8 (m.reg r) (m.operand src).1) hexec (sub8_flags _ _)
    (by simp) (by simp) (by simp) (by simp)

/-- A one-operand computation in closed form: its result, and its flags with H as given. -/
structure Computes (f : Byte → ArithResult) (result : Byte → Byte) (flags : Byte → Bool → CC) :
    Prop where
  r : ∀ v, (f v).r = result v
  flags : ∀ v h, (f v).flags h = flags v h

theorem runsTo_inPlace {i : Instr} {m : State} {f : Byte → ArithResult} {result : Byte → Byte}
    {flags : Byte → Bool → CC} (hf : Computes f result flags) (r : Reg)
    (hexec : exec i m = .next (m.inPlace (.reg r) f)) :
    ∃ h, RunsTo i m { m.regs.set r (result (m.reg r)) with cc := flags (m.reg r) h } := by
  rw [State.inPlace_reg] at hexec
  exact runsTo_flagsDrawH (f (m.reg r)) hexec (hf.flags _) (by rw [State.setReg_regs, hf.r])
    (by simp) (by simp) (by simp)

theorem storesTo_inPlace {i : Instr} {m : State} {f : Byte → ArithResult} {result : Byte → Byte}
    {flags : Byte → Bool → CC} (hf : Computes f result flags) (adr : Byte)
    (hexec : exec i m = .next (m.inPlace (.adr adr) f)) :
    ∃ h, StoresTo i m { m.regs with cc := flags (m.mem.read adr) h } adr
      (result (m.mem.read adr)) := by
  rw [State.inPlace_adr] at hexec
  exact storesTo_flagsDrawH (f (m.mem.read adr)) hexec (hf.flags _) (hf.r _)

/-- NEG: V only at `$80`, which has no opposite, C unless the value is zero. -/
theorem neg_computes :
    Computes (fun v => sub8 0 v) (fun v => 0 - v) fun v h =>
      ⟨h, (0 - v).msb, decide (v = 0), decide (v = 0x80), decide (v ≠ 0)⟩ where
  r _ := rfl
  flags v h := by
    rw [sub8_flags, subFlags, CC.mk.injEq]
    refine ⟨rfl, rfl, ?_, ?_, ?_⟩ <;>
      simp only [decide_eq_decide, BitVec.toInt_eq_toNat_cond] <;> bv_omega

theorem shl_computes (low : Bool) :
    Computes (fun v => shl8 v low) (fun v => shiftedLeft v low) fun v h => shiftFlags h v low where
  r v := shl8_r v low
  flags v h := by
    simp [ArithResult.flags, shiftFlags, shiftedLeft]

/-- INC: C and Z only at `$FF`, V only at `$7F`. -/
theorem inc_computes :
    Computes inc8 (fun v => v + 1) fun v h =>
      ⟨h, (v + 1).msb, decide (v = 0xFF), decide (v = 0x7F), decide (v = 0xFF)⟩ where
  r v := add8_r v 1
  flags v h := by
    rw [ArithResult.flags, inc8, CC.mk.injEq, add8_r, add8_v, add8_c]
    refine ⟨rfl, rfl, ?_, ?_, ?_⟩ <;>
      simp only [decide_eq_decide, BitVec.toInt_eq_toNat_cond] <;> bv_omega

/-- DEC: Z only at `$01`, V only at `$80`, C only at `$00`. -/
theorem dec_computes :
    Computes (fun v => sub8 v 1) (fun v => v - 1) fun v h =>
      ⟨h, (v - 1).msb, decide (v = 1), decide (v = 0x80), decide (v = 0)⟩ where
  r _ := rfl
  flags v h := by
    rw [sub8_flags, subFlags, CC.mk.injEq]
    refine ⟨rfl, rfl, rfl, ?_, ?_⟩ <;>
      simp only [decide_eq_decide, BitVec.toInt_eq_toNat_cond] <;> bv_omega

/-- COM of a register: H and C are draws. -/
theorem runsTo_complement {i : Instr} {m : State} (r : Reg)
    (hexec : exec i m = .next (m.complement (.reg r))) :
    ∃ h c, RunsTo i m { m.regs.set r (~~~m.reg r) with
      cc := ⟨h, (~~~m.reg r).msb, decide (~~~m.reg r = 0), false, c⟩ } := by
  rw [State.complement_reg] at hexec
  have hrun := runsTo_of_exec hexec (by simp) (by simp) (by simp)
  rw [State.flagsDrawHC_regs, State.setReg_regs] at hrun
  exact ⟨_, _, hrun⟩

theorem storesTo_complement {i : Instr} {m : State} (adr : Byte)
    (hexec : exec i m = .next (m.complement (.adr adr))) :
    ∃ h c, StoresTo i m { m.regs with
      cc := ⟨h, (~~~m.mem.read adr).msb, decide (~~~m.mem.read adr = 0), false, c⟩ } adr
      (~~~m.mem.read adr) := by
  rw [State.complement_adr] at hexec
  have hrun := storesTo_of_exec (adr := adr) (v := ~~~m.mem.read adr) hexec rfl rfl rfl
  rw [State.flagsDrawHC_regs] at hrun
  exact ⟨_, _, hrun⟩

/-- CLR of a register: V is a draw. -/
theorem runsTo_clear {i : Instr} {m : State} (r : Reg)
    (hexec : exec i m = .next (m.clear (.reg r))) :
    ∃ w, RunsTo i m { m.regs.set r 0 with cc := ⟨false, false, true, w, false⟩ } := by
  rw [State.clear_reg] at hexec
  have hrun := runsTo_of_exec hexec (by simp) (by simp) (by simp)
  rw [State.flagsClear_regs, State.setReg_regs] at hrun
  exact ⟨_, hrun⟩

theorem storesTo_clear {i : Instr} {m : State} (adr : Byte)
    (hexec : exec i m = .next (m.clear (.adr adr))) :
    ∃ w, StoresTo i m { m.regs with cc := ⟨false, false, true, w, false⟩ } adr 0 := by
  rw [State.clear_adr] at hexec
  exact ⟨_, storesTo_of_exec hexec rfl rfl rfl⟩

/-- Settles O24: the twelve rows are `logicReg` with three operators, two accumulators and both kinds of
operand. -/
theorem logicOnAccumulators : Obligations.LogicOnAccumulators := fun _ v =>
  ⟨⟨rowIs_encode (.andaAdr v), runsTo_logicReg .a (.adr v) rfl⟩,
    ⟨rowIs_encode (.andaImm v), runsTo_logicReg .a (.data v) rfl⟩,
    ⟨rowIs_encode (.andbAdr v), runsTo_logicReg .b (.adr v) rfl⟩,
    ⟨rowIs_encode (.andbImm v), runsTo_logicReg .b (.data v) rfl⟩,
    ⟨rowIs_encode (.oraAdr v), runsTo_logicReg .a (.adr v) rfl⟩,
    ⟨rowIs_encode (.oraImm v), runsTo_logicReg .a (.data v) rfl⟩,
    ⟨rowIs_encode (.orbAdr v), runsTo_logicReg .b (.adr v) rfl⟩,
    ⟨rowIs_encode (.orbImm v), runsTo_logicReg .b (.data v) rfl⟩,
    ⟨rowIs_encode (.eoraAdr v), runsTo_logicReg .a (.adr v) rfl⟩,
    ⟨rowIs_encode (.eoraImm v), runsTo_logicReg .a (.data v) rfl⟩,
    ⟨rowIs_encode (.eorbAdr v), runsTo_logicReg .b (.adr v) rfl⟩,
    ⟨rowIs_encode (.eorbImm v), runsTo_logicReg .b (.data v) rfl⟩⟩

/-- Settles O25: COM of two registers and of a memory byte. -/
theorem complementInPlace : Obligations.ComplementInPlace := fun _ v =>
  ⟨⟨rowIs_encode .coma, runsTo_complement .a rfl⟩,
    ⟨rowIs_encode .comb, runsTo_complement .b rfl⟩,
    ⟨rowIs_encode (.comAdr v), storesTo_complement v rfl⟩⟩

/-- Settles O28: each row subtracts its operand from one accumulator. -/
theorem subtractFromAccumulator : Obligations.SubtractFromAccumulator := fun _ v =>
  ⟨⟨rowIs_encode (.subaAdr v), runsTo_subReg .a (.adr v) rfl⟩,
    ⟨rowIs_encode (.subaImm v), runsTo_subReg .a (.data v) rfl⟩,
    ⟨rowIs_encode (.subbAdr v), runsTo_subReg .b (.adr v) rfl⟩,
    ⟨rowIs_encode (.subbImm v), runsTo_subReg .b (.data v) rfl⟩⟩

/-- Settles O29: in place with the closed form of `sub8 0`. -/
theorem negateInPlace : Obligations.NegateInPlace := fun _ v =>
  ⟨⟨rowIs_encode .nega, runsTo_inPlace neg_computes .a rfl⟩,
    ⟨rowIs_encode .negb, runsTo_inPlace neg_computes .b rfl⟩,
    ⟨rowIs_encode (.negAdr v), storesTo_inPlace neg_computes v rfl⟩⟩

/-- Settles O30: in place with the closed form of `shl8`, a zero moved in. -/
theorem shiftLeftInPlace : Obligations.ShiftLeftInPlace := fun _ v =>
  ⟨⟨rowIs_encode .asla, runsTo_inPlace (shl_computes false) .a rfl⟩,
    ⟨rowIs_encode .aslb, runsTo_inPlace (shl_computes false) .b rfl⟩,
    ⟨rowIs_encode (.aslAdr v), storesTo_inPlace (shl_computes false) v rfl⟩⟩

/-- Settles O31: in place with the closed form of `shl8`, the old carry moved in. -/
theorem rotateLeftInPlace : Obligations.RotateLeftInPlace := fun m v =>
  ⟨⟨rowIs_encode .rola, runsTo_inPlace (shl_computes m.cc.c) .a rfl⟩,
    ⟨rowIs_encode .rolb, runsTo_inPlace (shl_computes m.cc.c) .b rfl⟩,
    ⟨rowIs_encode (.rolAdr v), storesTo_inPlace (shl_computes m.cc.c) v rfl⟩⟩

/-- Settles O32: in place with the closed form of `inc8`. -/
theorem incrementInPlace : Obligations.IncrementInPlace := fun _ v =>
  ⟨⟨rowIs_encode .inca, runsTo_inPlace inc_computes .a rfl⟩,
    ⟨rowIs_encode .incb, runsTo_inPlace inc_computes .b rfl⟩,
    ⟨rowIs_encode (.incAdr v), storesTo_inPlace inc_computes v rfl⟩⟩

/-- Settles O33: in place with the closed form of `sub8` with 1. -/
theorem decrementInPlace : Obligations.DecrementInPlace := fun _ v =>
  ⟨⟨rowIs_encode .deca, runsTo_inPlace dec_computes .a rfl⟩,
    ⟨rowIs_encode .decb, runsTo_inPlace dec_computes .b rfl⟩,
    ⟨rowIs_encode (.decAdr v), storesTo_inPlace dec_computes v rfl⟩⟩

/-- Settles O34: CLR of two registers and of a memory byte. -/
theorem clearInPlace : Obligations.ClearInPlace := fun _ v =>
  ⟨⟨rowIs_encode .clra, runsTo_clear .a rfl⟩,
    ⟨rowIs_encode .clrb, runsTo_clear .b rfl⟩,
    ⟨rowIs_encode (.clrAdr v), storesTo_clear v rfl⟩⟩

/-- Settles O35: each row compares one register with its operand. -/
theorem compareSetsTheFlagsOfADifference : Obligations.CompareSetsTheFlagsOfADifference := fun _ v =>
  ⟨⟨rowIs_encode (.cmpaAdr v), runsTo_compareReg .a (.adr v) rfl⟩,
    ⟨rowIs_encode (.cmpbAdr v), runsTo_compareReg .b (.adr v) rfl⟩,
    ⟨rowIs_encode (.cmpxAdr v), runsTo_compareReg .x (.adr v) rfl⟩,
    ⟨rowIs_encode (.cmpsAdr v), runsTo_compareReg .s (.adr v) rfl⟩,
    ⟨rowIs_encode (.cmpaImm v), runsTo_compareReg .a (.data v) rfl⟩,
    ⟨rowIs_encode (.cmpbImm v), runsTo_compareReg .b (.data v) rfl⟩,
    ⟨rowIs_encode (.cmpxImm v), runsTo_compareReg .x (.data v) rfl⟩,
    ⟨rowIs_encode (.cmpsImm v), runsTo_compareReg .s (.data v) rfl⟩⟩

/-- Settles O36: three rows test a place, four test an accumulator under a mask. -/
theorem testAndBitTestSetTheFlags : Obligations.TestAndBitTestSetTheFlags := fun _ v =>
  ⟨⟨rowIs_encode .tsta, runsTo_testPlace (.reg .a) rfl⟩,
    ⟨rowIs_encode .tstb, runsTo_testPlace (.reg .b) rfl⟩,
    ⟨rowIs_encode (.tstAdr v), runsTo_testPlace (.adr v) rfl⟩,
    ⟨rowIs_encode (.bitaAdr v), runsTo_bitTest .a (.adr v) rfl⟩,
    ⟨rowIs_encode (.bitbAdr v), runsTo_bitTest .b (.adr v) rfl⟩,
    ⟨rowIs_encode (.bitaImm v), runsTo_bitTest .a (.data v) rfl⟩,
    ⟨rowIs_encode (.bitbImm v), runsTo_bitTest .b (.data v) rfl⟩⟩

end Sys2Proof.Machine
end

section
/-!
The branches (45_jump.md R240, R241), settled once for any condition, and what each condition says of
the flags; then of the flags of a difference, where it decides an order of the operands.
-/

namespace Sys2Proof.Machine

theorem exec_of_branchIf {i : Instr} {m : State} {taken : Bool} {offs : Byte} {p : Prop}
    [Decidable p] (htaken : taken = true ↔ p) (hexec : exec i m = .next (m.branchIf taken offs)) :
    exec i m = .next { m with pc := if p then m.pc + offs else m.pc } := by
  simpa only [State.branchIf_eq, htaken] using hexec

theorem runsTo_branchIf {i : Instr} {m : State} {taken : Bool} {offs : Byte} {p : Prop} [Decidable p]
    (htaken : taken = true ↔ p) (hexec : exec i m = .next (m.branchIf taken offs)) :
    RunsTo i m { m.regs with pc := if p then m.pc + offs else m.pc } :=
  runsTo_of_exec (exec_of_branchIf htaken hexec) rfl rfl rfl

/-- Settles O38: BRA is a jump; each condition is a flag or its negation. -/
theorem branchesOnOneFlag : Obligations.BranchesOnOneFlag := fun _ v =>
  ⟨⟨rowIs_encode (.braOffs v), runsTo_jump rfl⟩,
    ⟨rowIs_encode (.bmiOffs v), runsTo_branchIf Iff.rfl rfl⟩,
    ⟨rowIs_encode (.bplOffs v), runsTo_branchIf (Bool.not_eq_true' _).to_iff rfl⟩,
    ⟨rowIs_encode (.beqOffs v), runsTo_branchIf Iff.rfl rfl⟩,
    ⟨rowIs_encode (.bneOffs v), runsTo_branchIf (Bool.not_eq_true' _).to_iff rfl⟩,
    ⟨rowIs_encode (.bvsOffs v), runsTo_branchIf Iff.rfl rfl⟩,
    ⟨rowIs_encode (.bvcOffs v), runsTo_branchIf (Bool.not_eq_true' _).to_iff rfl⟩,
    ⟨rowIs_encode (.bcsOffs v), runsTo_branchIf Iff.rfl rfl⟩,
    ⟨rowIs_encode (.bccOffs v), runsTo_branchIf (Bool.not_eq_true' _).to_iff rfl⟩⟩

theorem holds_hi_iff (f : CC) : Cond.holds .hi f = true ↔ f.c = false ∧ f.z = false := by
  simp [Cond.holds]

theorem holds_ls_iff (f : CC) : Cond.holds .ls f = true ↔ f.c = true ∨ f.z = true := by
  simp [Cond.holds]

theorem holds_gt_iff (f : CC) : Cond.holds .gt f = true ↔ f.n = f.v ∧ f.z = false := by
  simp [Cond.holds]

theorem holds_ge_iff (f : CC) : Cond.holds .ge f = true ↔ f.n = f.v := by
  simp [Cond.holds]

theorem holds_le_iff (f : CC) : Cond.holds .le f = true ↔ f.n ≠ f.v ∨ f.z = true := by
  simp [Cond.holds]

theorem holds_lt_iff (f : CC) : Cond.holds .lt f = true ↔ f.n ≠ f.v := by
  simp [Cond.holds]

/-- Settles O39: each condition by its formula of R241. -/
theorem branchesOnAnOrder : Obligations.BranchesOnAnOrder := fun m v =>
  ⟨⟨rowIs_encode (.bhiOffs v), runsTo_branchIf (holds_hi_iff m.cc) rfl⟩,
    ⟨rowIs_encode (.blsOffs v), runsTo_branchIf (holds_ls_iff m.cc) rfl⟩,
    ⟨rowIs_encode (.bgtOffs v), runsTo_branchIf (holds_gt_iff m.cc) rfl⟩,
    ⟨rowIs_encode (.bgeOffs v), runsTo_branchIf (holds_ge_iff m.cc) rfl⟩,
    ⟨rowIs_encode (.bleOffs v), runsTo_branchIf (holds_le_iff m.cc) rfl⟩,
    ⟨rowIs_encode (.bltOffs v), runsTo_branchIf (holds_lt_iff m.cc) rfl⟩⟩

section
variable (h : Bool) (p q : Byte)

theorem subFlags_z_iff : (subFlags h p q).z = true ↔ p = q := by
  simp [subFlags]

theorem subFlags_z_eq_false_iff : (subFlags h p q).z = false ↔ p ≠ q := by
  simp [subFlags]

theorem subFlags_c_iff : (subFlags h p q).c = true ↔ p.toNat < q.toNat := by
  simp [subFlags]

theorem subFlags_c_eq_false_iff : (subFlags h p q).c = false ↔ q.toNat ≤ p.toNat := by
  simp [subFlags]

/-- N is V exactly when the first operand is not the smaller in two's complement: the wrapped
difference has the wrong sign exactly when V is set. -/
theorem subFlags_n_eq_v_iff :
    (subFlags h p q).n = (subFlags h p q).v ↔ q.toInt ≤ p.toInt := by
  have hp := And.intro p.le_toInt p.toInt_lt
  have hq := And.intro q.le_toInt q.toInt_lt
  simp only [subFlags, BitVec.msb_eq_toInt, decide_eq_decide, BitVec.toInt_sub, Int.bmod_def]
  omega

theorem holds_eq_subFlags : Cond.holds .eq (subFlags h p q) = true ↔ p = q :=
  subFlags_z_iff h p q

theorem holds_ne_subFlags : Cond.holds .ne (subFlags h p q) = true ↔ p ≠ q := by
  rw [Cond.holds, Bool.not_eq_true', subFlags_z_eq_false_iff]

theorem holds_cs_subFlags : Cond.holds .cs (subFlags h p q) = true ↔ p.toNat < q.toNat :=
  subFlags_c_iff h p q

theorem holds_cc_subFlags : Cond.holds .cc (subFlags h p q) = true ↔ q.toNat ≤ p.toNat := by
  rw [Cond.holds, Bool.not_eq_true', subFlags_c_eq_false_iff]

theorem holds_hi_subFlags : Cond.holds .hi (subFlags h p q) = true ↔ q.toNat < p.toNat := by
  rw [holds_hi_iff, subFlags_c_eq_false_iff, subFlags_z_eq_false_iff]
  bv_omega

theorem holds_ls_subFlags : Cond.holds .ls (subFlags h p q) = true ↔ p.toNat ≤ q.toNat := by
  rw [holds_ls_iff, subFlags_c_iff, subFlags_z_iff]
  bv_omega

theorem holds_gt_subFlags : Cond.holds .gt (subFlags h p q) = true ↔ q.toInt < p.toInt := by
  rw [holds_gt_iff, subFlags_n_eq_v_iff, subFlags_z_eq_false_iff, ne_eq, ← BitVec.toInt_inj]
  omega

theorem holds_ge_subFlags : Cond.holds .ge (subFlags h p q) = true ↔ q.toInt ≤ p.toInt := by
  rw [holds_ge_iff, subFlags_n_eq_v_iff]

theorem holds_le_subFlags : Cond.holds .le (subFlags h p q) = true ↔ p.toInt ≤ q.toInt := by
  rw [holds_le_iff, ne_eq, subFlags_n_eq_v_iff, subFlags_z_iff, ← BitVec.toInt_inj]
  omega

theorem holds_lt_subFlags : Cond.holds .lt (subFlags h p q) = true ↔ p.toInt < q.toInt := by
  rw [holds_lt_iff, ne_eq, subFlags_n_eq_v_iff, not_le]

end

/-- After an instruction that leaves PC as it was and the flags of `p - q`, the branches decide how `p`
stands to `q`. -/
theorem decidesTheOrder_of_subFlags {compare : Instr} {m t : State} {h : Bool} {p q : Byte}
    (hexec : exec compare m = .next t) (hpc : t.pc = m.pc) (hcc : t.cc = subFlags h p q) :
    DecidesTheOrder compare m p q := by
  refine ⟨t, hexec, fun v => ?_⟩
  rw [← hpc]
  exact ⟨exec_of_branchIf (hcc ▸ holds_eq_subFlags h p q) rfl,
    exec_of_branchIf (hcc ▸ holds_ne_subFlags h p q) rfl,
    exec_of_branchIf (hcc ▸ holds_cs_subFlags h p q) rfl,
    exec_of_branchIf (hcc ▸ holds_cc_subFlags h p q) rfl,
    exec_of_branchIf (hcc ▸ holds_hi_subFlags h p q) rfl,
    exec_of_branchIf (hcc ▸ holds_ls_subFlags h p q) rfl,
    exec_of_branchIf (hcc ▸ holds_gt_subFlags h p q) rfl,
    exec_of_branchIf (hcc ▸ holds_ge_subFlags h p q) rfl,
    exec_of_branchIf (hcc ▸ holds_le_subFlags h p q) rfl,
    exec_of_branchIf (hcc ▸ holds_lt_subFlags h p q) rfl⟩

/-- What O35 says of a compare is enough for the branches after it. -/
theorem decidesTheOrder_of_runsTo {compare : Instr} {m : State} {p q : Byte}
    (hrun : ∃ h, RunsTo compare m { m.regs with cc := subFlags h p q }) :
    DecidesTheOrder compare m p q := by
  obtain ⟨h, t, hexec, hregs, -⟩ := hrun
  exact decidesTheOrder_of_subFlags hexec (congrArg Regs.pc hregs) (congrArg Regs.cc hregs)

/-- Settles O40: every compare leaves the flags of a difference, and these decide the order. -/
theorem compareThenBranchDecidesTheOrder : Obligations.CompareThenBranchDecidesTheOrder := fun _ v =>
  ⟨decidesTheOrder_of_runsTo (runsTo_compareReg .a (.adr v) rfl),
    decidesTheOrder_of_runsTo (runsTo_compareReg .b (.adr v) rfl),
    decidesTheOrder_of_runsTo (runsTo_compareReg .x (.adr v) rfl),
    decidesTheOrder_of_runsTo (runsTo_compareReg .s (.adr v) rfl),
    decidesTheOrder_of_runsTo (runsTo_compareReg .a (.data v) rfl),
    decidesTheOrder_of_runsTo (runsTo_compareReg .b (.data v) rfl),
    decidesTheOrder_of_runsTo (runsTo_compareReg .x (.data v) rfl),
    decidesTheOrder_of_runsTo (runsTo_compareReg .s (.data v) rfl)⟩

end Sys2Proof.Machine
end

section
/-!
The stack (20_memory.md R63): PSHS, PULS, JSR, BSR, RTS, RTI. A push stores below S, a pull loads at S;
and a pull at the place of a push gives back what was pushed.
-/

namespace Sys2Proof.Machine

theorem storesTo_push {i : Instr} {m : State} {v : Byte} (hexec : exec i m = .next (m.push v)) :
    StoresTo i m { m.regs with s := m.s - 1 } (m.s - 1) v :=
  storesTo_of_exec hexec rfl rfl rfl

theorem storesTo_pushCC {i : Instr} {m : State}
    (hexec : exec i m = .next (m.readCC.2.push m.readCC.1)) :
    ∃ u, StoresTo i m { m.regs with s := m.s - 1 } (m.s - 1) (ccToByte m.cc u) :=
  ⟨_, storesTo_of_exec hexec rfl rfl rfl⟩

theorem storesTo_call {i : Instr} {m : State} {v target : Byte}
    (hexec : exec i m = .next ((m.push v).jump target)) :
    StoresTo i m { m.regs with s := m.s - 1, pc := target } (m.s - 1) v :=
  storesTo_of_exec hexec rfl rfl rfl

theorem State.pull_regs (m : State) : m.pull.2.regs = { m.regs with s := m.s + 1 } := rfl

theorem runsTo_pull {i : Instr} {m : State} (r : Reg)
    (hexec : exec i m = .next (m.pull.2.setReg r m.pull.1)) :
    RunsTo i m ({ m.regs with s := m.s + 1 }.set r (m.mem.read m.s)) := by
  have hrun := runsTo_of_exec hexec (by simp) (by simp) (by simp)
  rwa [State.setReg_regs, State.pull_regs, State.pull_value] at hrun

theorem runsTo_pullCC {i : Instr} {m : State}
    (hexec : exec i m = .next (m.pull.2.writeCC m.pull.1)) :
    RunsTo i m { m.regs with cc := byteToCC (m.mem.read m.s), s := m.s + 1 } :=
  runsTo_of_exec hexec rfl rfl rfl

theorem runsTo_return {i : Instr} {m : State}
    (hexec : exec i m = .next (m.pull.2.jump m.pull.1)) :
    RunsTo i m { m.regs with s := m.s + 1, pc := m.mem.read m.s } :=
  runsTo_of_exec hexec rfl rfl rfl

/-- RTI pulls A, B, CC, X, PC, from S upward (45_jump.md R261). -/
theorem State.returnFromIrq_regs (m : State) :
    m.returnFromIrq.regs =
      ⟨m.mem.read m.s, m.mem.read (m.s + 1), m.mem.read (m.s + 3), m.s + 5, m.mem.read (m.s + 4),
        byteToCC (m.mem.read (m.s + 2))⟩ := by
  have h2 : m.s + 1 + 1 = m.s + 2 := by bv_omega
  have h3 : m.s + 2 + 1 = m.s + 3 := by bv_omega
  have h4 : m.s + 3 + 1 = m.s + 4 := by bv_omega
  have h5 : m.s + 4 + 1 = m.s + 5 := by bv_omega
  rw [State.returnFromIrq_eq, h2, h3, h4, h5]
  rfl

theorem runsTo_rti (m : State) : RunsTo .rti m m.returnFromIrq.regs :=
  runsTo_of_exec rfl rfl rfl rfl

/-- Settles O41: JSR and BSR push PC and jump. -/
theorem callsPushTheReturnAddress : Obligations.CallsPushTheReturnAddress := fun _ v =>
  ⟨⟨rowIs_encode (.jsrAdr v), storesTo_call rfl⟩, ⟨rowIs_encode (.bsrOffs v), storesTo_call rfl⟩⟩

/-- Settles O42: RTS pulls PC. -/
theorem rtsPullsPc : Obligations.RtsPullsPc := fun _ => ⟨rowIs_encode .rts, runsTo_return rfl⟩

/-- Settles O44: the five pulls of RTI. -/
theorem rtiPullsFiveBytes : Obligations.RtiPullsFiveBytes := fun m =>
  ⟨rowIs_encode .rti, m.returnFromIrq_regs ▸ runsTo_rti m⟩

/-- Settles O45: a push of a register, or of the image of CC. -/
theorem pushesStoreBelowS : Obligations.PushesStoreBelowS := fun _ =>
  ⟨⟨rowIs_encode .pshsA, storesTo_push rfl⟩, ⟨rowIs_encode .pshsB, storesTo_push rfl⟩,
    ⟨rowIs_encode .pshsX, storesTo_push rfl⟩, ⟨rowIs_encode .pshsCC, storesTo_pushCC rfl⟩⟩

/-- Settles O46: a pull to a register, or to CC. -/
theorem pullsLoadFromS : Obligations.PullsLoadFromS := fun _ =>
  ⟨⟨rowIs_encode .pulsA, runsTo_pull .a rfl⟩, ⟨rowIs_encode .pulsB, runsTo_pull .b rfl⟩,
    ⟨rowIs_encode .pulsX, runsTo_pull .x rfl⟩, ⟨rowIs_encode .pulsCC, runsTo_pullCC rfl⟩⟩

/-- An instruction that pushes a byte, then, from any state with S and the pushed byte as the push left
them, one that pulls: it sees the S from before the push, and the byte. -/
theorem pull_after_push {push pull : Instr} {m : State} {pushed : Regs} {v : Byte}
    (after : Regs → Byte → Byte → Regs) (hs : pushed.s = m.s - 1)
    (hpush : StoresTo push m pushed (m.s - 1) v)
    (hpull : ∀ w : State, RunsTo pull w (after w.regs (w.s + 1) (w.mem.read w.s))) :
    ∃ t, exec push m = .next t ∧ ∀ w : State, w.s = t.s → w.mem.read t.s = t.mem.read t.s →
      RunsTo pull w (after w.regs m.s v) := by
  obtain ⟨t, hexec, hregs, -, -, hstored, -⟩ := hpush
  have hts : t.s = m.s - 1 := (congrArg Regs.s hregs).trans hs
  refine ⟨t, hexec, fun w hws hread => ?_⟩
  have hback : w.s + 1 = m.s := by rw [hws, hts, BitVec.sub_add_cancel]
  have hbyte : w.mem.read w.s = v := by rw [hws, hread, hts, hstored]
  simpa only [hback, hbyte] using hpull w

/-- Settles O43: the call pushes PC, and RTS pulls it. -/
theorem callThenReturn : Obligations.CallThenReturn := fun _ _ =>
  ⟨pull_after_push (fun regs s pc => { regs with s, pc }) rfl (storesTo_call rfl)
      fun _ => runsTo_return rfl,
    pull_after_push (fun regs s pc => { regs with s, pc }) rfl (storesTo_call rfl)
      fun _ => runsTo_return rfl⟩

theorem pulsCC_after_pshsCC (m : State) :
    ∃ t, exec .pshsCC m = .next t ∧ ∀ w : State, w.s = t.s → w.mem.read t.s = t.mem.read t.s →
      RunsTo .pulsCC w { w.regs with s := m.s, cc := m.cc } := by
  obtain ⟨u, hpush⟩ := storesTo_pushCC (i := .pshsCC) (m := m) rfl
  simpa only [byteToCC_ccToByte] using
    pull_after_push (fun regs s image => { regs with s, cc := byteToCC image }) rfl hpush
      fun _ => runsTo_pullCC (i := .pulsCC) rfl

/-- Settles O47: for CC the image of the flags gives the flags back (O18). -/
theorem pushThenPullRestores : Obligations.PushThenPullRestores := fun m =>
  ⟨pull_after_push (fun regs s a => { regs with s, a }) rfl (storesTo_push rfl)
      fun _ => runsTo_pull .a rfl,
    pull_after_push (fun regs s b => { regs with s, b }) rfl (storesTo_push rfl)
      fun _ => runsTo_pull .b rfl,
    pulsCC_after_pshsCC m,
    pull_after_push (fun regs s x => { regs with s, x }) rfl (storesTo_push rfl)
      fun _ => runsTo_pull .x rfl⟩

end Sys2Proof.Machine
end

section
/-!
LEAX (47_leax.md R280) and the loads and stores through X (48_indexed_transfer.md R290), settled once
for any instruction with the form: the address is `indexTarget`, X becomes `indexLeft`.
-/

namespace Sys2Proof.Machine

theorem runsTo_setReg {i : Instr} {m : State} (r : Reg) {v : Byte}
    (hexec : exec i m = .next (m.setReg r v)) : RunsTo i m (m.regs.set r v) := by
  simpa using runsTo_of_exec hexec (by simp) (by simp) (by simp)

theorem runsTo_loadIndexed_a {i : Instr} {m : State} (form : IndexForm)
    (hexec : exec i m = .next (m.loadIndexed .a form)) :
    RunsTo i m { m.regs with a := m.mem.read (indexTarget m form), x := indexLeft m form } := by
  rw [State.loadIndexed_a] at hexec
  exact runsTo_of_exec hexec rfl rfl rfl

theorem runsTo_loadIndexed_b {i : Instr} {m : State} (form : IndexForm)
    (hexec : exec i m = .next (m.loadIndexed .b form)) :
    RunsTo i m { m.regs with b := m.mem.read (indexTarget m form), x := indexLeft m form } := by
  rw [State.loadIndexed_b] at hexec
  exact runsTo_of_exec hexec rfl rfl rfl

theorem storesTo_storeIndexed_a {i : Instr} {m : State} (form : IndexForm)
    (hexec : exec i m = .next (m.storeIndexed .a form)) :
    StoresTo i m { m.regs with x := indexLeft m form } (indexTarget m form) m.a := by
  rw [State.storeIndexed_a] at hexec
  exact storesTo_of_exec hexec rfl rfl rfl

theorem storesTo_storeIndexed_b {i : Instr} {m : State} (form : IndexForm)
    (hexec : exec i m = .next (m.storeIndexed .b form)) :
    StoresTo i m { m.regs with x := indexLeft m form } (indexTarget m form) m.b := by
  rw [State.storeIndexed_b] at hexec
  exact storesTo_of_exec hexec rfl rfl rfl

/-- Settles O48: each row writes X. -/
theorem leaxComputesX : Obligations.LeaxComputesX := fun _ v =>
  ⟨⟨rowIs_encode .leaxDecX, runsTo_setReg .x rfl⟩, ⟨rowIs_encode .leaxXInc, runsTo_setReg .x rfl⟩,
    ⟨rowIs_encode (.leaxNX v), runsTo_setReg .x rfl⟩, ⟨rowIs_encode .leaxAX, runsTo_setReg .x rfl⟩,
    ⟨rowIs_encode .leaxBX, runsTo_setReg .x rfl⟩⟩

/-- Settles O49: the four forms that keep X, for both accumulators. -/
theorem indexedLoadsThatKeepX : Obligations.IndexedLoadsThatKeepX := fun _ v =>
  ⟨⟨rowIs_encode .ldaX, runsTo_loadIndexed_a .x rfl⟩,
    ⟨rowIs_encode .ldbX, runsTo_loadIndexed_b .x rfl⟩,
    ⟨rowIs_encode (.ldaNX v), runsTo_loadIndexed_a (.nX v) rfl⟩,
    ⟨rowIs_encode (.ldbNX v), runsTo_loadIndexed_b (.nX v) rfl⟩,
    ⟨rowIs_encode .ldaAX, runsTo_loadIndexed_a .aX rfl⟩,
    ⟨rowIs_encode .ldbAX, runsTo_loadIndexed_b .aX rfl⟩,
    ⟨rowIs_encode .ldaBX, runsTo_loadIndexed_a .bX rfl⟩,
    ⟨rowIs_encode .ldbBX, runsTo_loadIndexed_b .bX rfl⟩⟩

/-- Settles O50: the two forms that step X. -/
theorem indexedLoadsThatStepX : Obligations.IndexedLoadsThatStepX := fun _ =>
  ⟨⟨rowIs_encode .ldaXInc, runsTo_loadIndexed_a .xInc rfl⟩,
    ⟨rowIs_encode .ldbXInc, runsTo_loadIndexed_b .xInc rfl⟩,
    ⟨rowIs_encode .ldaDecX, runsTo_loadIndexed_a .decX rfl⟩,
    ⟨rowIs_encode .ldbDecX, runsTo_loadIndexed_b .decX rfl⟩⟩

/-- Settles O51: the four forms that keep X, for both accumulators. -/
theorem indexedStoresThatKeepX : Obligations.IndexedStoresThatKeepX := fun _ v =>
  ⟨⟨rowIs_encode .staX, storesTo_storeIndexed_a .x rfl⟩,
    ⟨rowIs_encode .stbX, storesTo_storeIndexed_b .x rfl⟩,
    ⟨rowIs_encode (.staNX v), storesTo_storeIndexed_a (.nX v) rfl⟩,
    ⟨rowIs_encode (.stbNX v), storesTo_storeIndexed_b (.nX v) rfl⟩,
    ⟨rowIs_encode .staAX, storesTo_storeIndexed_a .aX rfl⟩,
    ⟨rowIs_encode .stbAX, storesTo_storeIndexed_b .aX rfl⟩,
    ⟨rowIs_encode .staBX, storesTo_storeIndexed_a .bX rfl⟩,
    ⟨rowIs_encode .stbBX, storesTo_storeIndexed_b .bX rfl⟩⟩

/-- Settles O52: the two forms that step X. -/
theorem indexedStoresThatStepX : Obligations.IndexedStoresThatStepX := fun _ =>
  ⟨⟨rowIs_encode .staXInc, storesTo_storeIndexed_a .xInc rfl⟩,
    ⟨rowIs_encode .stbXInc, storesTo_storeIndexed_b .xInc rfl⟩,
    ⟨rowIs_encode .staDecX, storesTo_storeIndexed_a .decX rfl⟩,
    ⟨rowIs_encode .stbDecX, storesTo_storeIndexed_b .decX rfl⟩⟩

end Sys2Proof.Machine
end

section
/-!
Events of the environment (60_exceptions.md R322 to R329). Pushes fill memory downward from S, which
says what an interrupt entry, whole or broken by RESET, leaves at every address; RTI reads the frame
back, and so entries and returns nest.
-/

namespace Sys2Proof.Machine

/-- What any address reads as after pushes: counted down from the first push, the byte pushed there, or
what it was beyond the last (20_memory.md R63). -/
theorem State.read_pushAll (vs : List Byte) (m : State) (adr : Byte) (hlen : vs.length ≤ 256) :
    (State.pushAll vs m).mem.read adr = vs[(m.s - 1 - adr).toNat]?.getD (m.mem.read adr) := by
  induction vs generalizing m with
  | nil => rfl
  | cons v vs ih =>
    rw [List.length_cons] at hlen
    rw [State.pushAll, ih (m.push v) (by omega), State.push_s, State.push_mem, Memory.read_write]
    by_cases hadr : adr = m.s - 1
    · have hfirst : (m.s - 1 - adr).toNat = 0 := by bv_omega
      have hlast : (m.s - 1 - 1 - adr).toNat = 255 := by bv_omega
      rw [if_pos hadr, hfirst, hlast, List.getElem?_eq_none (by omega)]
      rfl
    · have hnext : (m.s - 1 - adr).toNat = (m.s - 1 - 1 - adr).toNat + 1 := by bv_omega
      rw [if_neg hadr, hnext, List.getElem?_cons_succ]

theorem State.takeIrq_regs (m : State) :
    m.takeIrq.regs = { m.regs with s := m.s - 5, pc := Config.irqPc m.takeIrq.mem.read } := by
  have hs : m.s - 1 - 1 - 1 - 1 - 1 = m.s - 5 := by bv_omega
  rw [State.takeIrq_eq, hs]
  rfl

theorem State.takeIrq_s (m : State) : m.takeIrq.s = m.s - 5 :=
  congrArg Regs.s m.takeIrq_regs

@[simp] theorem State.takeIrq_image (m : State) : m.takeIrq.image = m.image := by
  rw [State.takeIrq_eq]

@[simp] theorem State.takeIrq_inputs (m : State) : m.takeIrq.inputs = m.inputs := by
  rw [State.takeIrq_eq]

theorem State.length_irqFrame (m : State) : m.irqFrame.1.length = 5 := rfl

theorem State.read_takeIrq (m : State) (adr : Byte) :
    m.takeIrq.mem.read adr = m.irqFrame.1[(m.s - 1 - adr).toNat]?.getD (m.mem.read adr) :=
  State.read_pushAll m.irqFrame.1 m.irqFrame.2 adr (m.length_irqFrame.trans_le (by decide))

/-- An address of the frame holds the byte of the frame. -/
theorem State.read_takeIrq_of_frame {m : State} {adr v : Byte} {k : Nat}
    (hframe : m.irqFrame.1[k]? = some v) (hadr : (m.s - 1 - adr).toNat = k) :
    m.takeIrq.mem.read adr = v := by
  rw [State.read_takeIrq, hadr, hframe, Option.getD_some]

/-- An address outside the frame keeps its byte. -/
theorem State.read_takeIrq_of_ge {m : State} {adr : Byte} (h : 5 ≤ (m.s - 1 - adr).toNat) :
    m.takeIrq.mem.read adr = m.mem.read adr := by
  rw [State.read_takeIrq, List.getElem?_eq_none h, Option.getD_none]

/-- The frame, from the first push down (60_exceptions.md R325). -/
theorem State.read_takeIrq_frame (m : State) :
    m.takeIrq.mem.read (m.s - 1) = m.pc ∧ m.takeIrq.mem.read (m.s - 2) = m.x ∧
      m.takeIrq.mem.read (m.s - 3) = ccToByte m.cc (Config.ccUnusedRead m.draws) ∧
      m.takeIrq.mem.read (m.s - 4) = m.b ∧ m.takeIrq.mem.read (m.s - 5) = m.a :=
  ⟨State.read_takeIrq_of_frame (k := 0) rfl (by bv_omega),
    State.read_takeIrq_of_frame (k := 1) rfl (by bv_omega),
    State.read_takeIrq_of_frame (k := 2) rfl (by bv_omega),
    State.read_takeIrq_of_frame (k := 3) rfl (by bv_omega),
    State.read_takeIrq_of_frame (k := 4) rfl (by bv_omega)⟩

theorem five_le_of_ne_frame {s adr : Byte} (h1 : adr ≠ s - 1) (h2 : adr ≠ s - 2) (h3 : adr ≠ s - 3)
    (h4 : adr ≠ s - 4) (h5 : adr ≠ s - 5) : 5 ≤ (s - 1 - adr).toNat := by
  bv_omega

/-- Settles O53: the registers, the frame at its five addresses, and every other address. -/
theorem irqEntryPushesTheFrame : Obligations.IrqEntryPushesTheFrame := by
  intro m later hinputs
  have hlater : m.passBoundary.inputs = later := congrArg List.tail hinputs
  obtain ⟨hpc, hx, hcc, hb, ha⟩ := m.passBoundary.read_takeIrq_frame
  exact ⟨m.passBoundary.takeIrq, Config.ccUnusedRead m.draws, step_of_inputs_irq hinputs,
    m.passBoundary.takeIrq_regs, m.passBoundary.takeIrq_inputs.trans hlater,
    m.passBoundary.takeIrq_image, hpc, hx, hcc, hb, ha,
    fun _ h1 h2 h3 h4 h5 =>
      State.read_takeIrq_of_ge (m := m.passBoundary) (five_le_of_ne_frame h1 h2 h3 h4 h5)⟩

/-- RTI from a state with S and the frame as an entry left them gives the registers from before the
entry. -/
theorem returnFromIrq_regs_of_frame {m w : State} (hs : w.s = m.takeIrq.s)
    (hframe : ∀ k : Byte, k.toNat < 5 →
      w.mem.read (m.takeIrq.s + k) = m.takeIrq.mem.read (m.takeIrq.s + k)) :
    w.returnFromIrq.regs = m.regs := by
  have htop := m.takeIrq_s
  have hread (k v : Byte) (hk : k.toNat < 5) (hv : m.irqFrame.1[4 - k.toNat]? = some v) :
      w.mem.read (w.s + k) = v := by
    rw [hs, hframe k hk, htop]
    exact State.read_takeIrq_of_frame hv (by bv_omega)
  have hbottom : w.s + 5 = m.s := by rw [hs, htop, BitVec.sub_add_cancel]
  have ha : w.mem.read w.s = m.a := by simpa using hread 0 m.a (by decide) rfl
  rw [State.returnFromIrq_regs, ha, hread 1 m.b (by decide) rfl,
    hread 2 (ccToByte m.cc (Config.ccUnusedRead m.draws)) (by decide) rfl,
    hread 3 m.x (by decide) rfl, hread 4 m.pc (by decide) rfl, hbottom, byteToCC_ccToByte]
  rfl

/-- Settles O54: the entry is `takeIrq`, and RTI reads its frame back. -/
theorem rtiUndoesIrqEntry : Obligations.RtiUndoesIrqEntry := by
  intro m t w later hinputs hstep hs hframe
  rw [step_of_inputs_irq hinputs] at hstep
  cases hstep
  exact returnFromIrq_regs_of_frame (m := m.passBoundary) hs hframe ▸ runsTo_rti w

/-- One more execution at the end of several. -/
theorem executeTimes_succ_of_exec {k : Nat} {i : Instr} {m t : State} {result : Result}
    (htimes : executeTimes k i m = .next t) (hexec : exec i t = result) :
    executeTimes (k + 1) i m = result := by
  induction k generalizing m with
  | zero =>
    cases htimes
    rw [executeTimes, hexec]
    cases result <;> rfl
  | succ k ih =>
    rw [executeTimes] at htimes ⊢
    cases hfirst : exec i m with
    | next t1 =>
      rw [hfirst] at htimes
      exact ih htimes
    | fault | refused =>
      rw [hfirst] at htimes
      cases htimes

/-- Settles O55: by induction on the depth. The frames of the inner entries lie below the frame of the
first, so it is as the first entry left it when the last RTI reads it. -/
theorem nestedIrqsUnwind : Obligations.NestedIrqsUnwind := by
  intro n m later hfits hinputs
  induction n generalizing m with
  | zero => exact ⟨m, m, rfl, rfl, rfl, hinputs, fun _ _ => rfl⟩
  | succ n ih =>
    have hirq : m.inputs = .irq :: (List.replicate n .irq ++ later) := hinputs
    have hstep := step_of_inputs_irq hirq
    have htop : m.passBoundary.takeIrq.s = m.s - 5 := m.passBoundary.takeIrq_s
    have hlater : m.passBoundary.takeIrq.inputs = List.replicate n .irq ++ later :=
      m.passBoundary.takeIrq_inputs.trans (congrArg List.tail hirq)
    obtain ⟨t, u, hrun, htimes, hregs, huinputs, hkept⟩ :=
      ih m.passBoundary.takeIrq (by omega) hlater
    have hrti : RunsTo .rti u m.regs := by
      refine rtiUndoesIrqEntry m _ u _ hirq hstep (congrArg Regs.s hregs) fun k hk => hkept _ ?_
      bv_omega
    obtain ⟨w, hexec, hwregs, hwinputs, -, hwmem⟩ := hrti
    refine ⟨t, w, ?_, executeTimes_succ_of_exec htimes hexec, hwregs, hwinputs.trans huinputs,
      fun adr hadr => ?_⟩
    · rw [runSteps, hstep]
      exact hrun
    · have hinner : 5 * n ≤ (m.passBoundary.takeIrq.s - 1 - adr).toNat := by
        rw [htop]
        bv_omega
      have hfirst : 5 ≤ (m.passBoundary.s - 1 - adr).toNat := by
        change 5 ≤ (m.s - 1 - adr).toNat
        omega
      rw [hwmem, hkept adr hinner, State.read_takeIrq_of_ge hfirst]
      rfl

/-- Settles O56: what RESET leaves at an address of the launch image. -/
theorem resetRestartsAtResetPc : Obligations.ResetRestartsAtResetPc := by
  intro m later hinputs
  exact ⟨_, step_of_inputs_reset hinputs, rfl, congrArg List.tail hinputs, rfl, fun _ _ himage =>
    Memory.read_afterReset_image m.mem m.image _ himage⟩

/-- The `j`th of the first `k` of five bytes, or another byte where there is none. -/
theorem getD_take_five (v0 v1 v2 v3 v4 other : Byte) (k j : Nat) :
    ([v0, v1, v2, v3, v4].take k)[j]?.getD other =
      if 1 ≤ k ∧ j = 0 then v0
      else if 2 ≤ k ∧ j = 1 then v1
      else if 3 ≤ k ∧ j = 2 then v2
      else if 4 ≤ k ∧ j = 3 then v3
      else if 5 ≤ k ∧ j = 4 then v4
      else other := by
  rw [List.getElem?_take]
  match j with
  | 0 | 1 | 2 | 3 | 4 | _ + 5 => grind

/-- What an address reads as after the first pushes of an interrupt entry. -/
theorem State.read_irqPrefix (m : State) (k : Nat) (adr : Byte) :
    (State.pushAll (m.irqFrame.1.take k) m.irqFrame.2).mem.read adr =
      if 1 ≤ k ∧ adr = m.s - 1 then m.pc
      else if 2 ≤ k ∧ adr = m.s - 2 then m.x
      else if 3 ≤ k ∧ adr = m.s - 3 then m.readCC.1
      else if 4 ≤ k ∧ adr = m.s - 4 then m.b
      else if 5 ≤ k ∧ adr = m.s - 5 then m.a
      else m.mem.read adr := by
  have hlen : (m.irqFrame.1.take k).length ≤ 256 :=
    (List.length_take_le' k _).trans (m.length_irqFrame.trans_le (by decide))
  have h1 : adr = m.s - 1 ↔ (m.s - 1 - adr).toNat = 0 := by bv_omega
  have h2 : adr = m.s - 2 ↔ (m.s - 1 - adr).toNat = 1 := by bv_omega
  have h3 : adr = m.s - 3 ↔ (m.s - 1 - adr).toNat = 2 := by bv_omega
  have h4 : adr = m.s - 4 ↔ (m.s - 1 - adr).toNat = 3 := by bv_omega
  have h5 : adr = m.s - 5 ↔ (m.s - 1 - adr).toNat = 4 := by bv_omega
  rw [State.read_pushAll _ _ _ hlen]
  simp only [h1, h2, h3, h4, h5]
  exact getD_take_five ..

theorem State.cutIrqByReset_inputs (m : State) (k : Nat) :
    (m.cutIrqByReset k).inputs = m.inputs := by
  rw [State.cutIrqByReset, State.takeReset_inputs, State.pushAll_inputs]
  rfl

theorem State.cutIrqByReset_image (m : State) (k : Nat) : (m.cutIrqByReset k).image = m.image := by
  rw [State.cutIrqByReset, State.takeReset_image, State.pushAll_image]
  rfl

/-- An address of the launch image holds the byte of the image, or what it read as after the pushes. -/
theorem State.read_cutIrqByReset (m : State) (k : Nat) {adr v : Byte}
    (himage : m.image.find adr.toNat = some v) :
    (m.cutIrqByReset k).mem.read adr = v ∨
      (m.cutIrqByReset k).mem.read adr =
        (State.pushAll (m.irqFrame.1.take k) m.irqFrame.2).mem.read adr := by
  refine Memory.read_afterReset_image _ _ _ ?_
  rw [State.pushAll_image]
  exact himage

/-- Settles O57: RESET leaves an image byte as the image has it or as the pushes before it left it. -/
theorem resetInIrqEntryLeavesAPrefix : Obligations.ResetInIrqEntryLeavesAPrefix := by
  intro m later k hinputs
  have hlater : m.passBoundary.inputs = later := congrArg List.tail hinputs
  refine ⟨m.passBoundary.cutIrqByReset k, Config.ccUnusedRead m.draws,
    step_of_inputs_resetInEntry hinputs, rfl, (State.cutIrqByReset_inputs ..).trans hlater,
    State.cutIrqByReset_image .., fun adr v himage => ?_⟩
  have hread := m.passBoundary.read_irqPrefix k adr
  exact (m.passBoundary.read_cutIrqByReset k himage).imp_right (·.trans hread)

/-- Settles O58: the fields of the reset state, and a launch image as memory and image. -/
theorem resetState : Obligations.ResetState :=
  ⟨rfl, rfl, rfl, rfl, fun _ => ⟨rfl, rfl, rfl, fun _ => rfl⟩⟩

end Sys2Proof.Machine
end
